-- ==== Sys2Proof/Word.lean ====
section
/-! DEFINITION. The machine's units of data: the wire byte and the display-bus payload. -/

namespace Sys2Proof

/-- A byte: 8 bits, numbered 7 (most significant) down to 0 (R12). It is the unit the serial link delivers
(R56) and the unit of the frame storage (R16). -/
abbrev Byte := BitVec 8

/-- The payload of one bus transfer: the number its bits spell. The gate never looks at it (R105) and its
width `WORD_W` is left open (R8), so it carries no width here; `Params.wordW` gives one where it is known. -/
abbrev Payload := Nat

end Sys2Proof
end

