-- ==== Sys2Proof/Config.lean ====
section
/-! DEFINITION. The parameters of one realisation of the block (R8). No operation changes one (R18, R19).
The serial rate, the bus, clock and refresh settings of R8 are read by no rule and are left out, as
spec/92_eei_decisions.md asks of them. The spec leaves no value open that an operation would have to make
up, so there is no opaque constant here. -/

namespace Sys2Proof

/-- The parameters the model takes (R8); what is computed from them stands in `Machine/Operands.lean`. -/
structure Params where
  /-- `WIDTH`: display width in pixels. -/
  width : Nat
  /-- `HEIGHT`: display height in pixels. -/
  height : Nat
  /-- `BPP`: bits per pixel. -/
  bpp : Nat
  /-- `SENTINEL`: the resynchronization byte (R19). -/
  sentinel : Byte
  /-- `WORD_W`: the display-bus word width, or `none` where it is left open, as the spec leaves it (R8). -/
  wordW : Option Nat
  deriving DecidableEq, Repr

/-- The source's literals (R8): 128 by 96 pixels of 4 bits, sentinel 0xFF; `WORD_W` stays open. -/
def Params.default : Params :=
  { width := 128, height := 96, bpp := 4, sentinel := 0xFF, wordW := none }

end Sys2Proof
end

