-- ==== Sys2Proof/Syntax.lean ====
section
/-! DEFINITION. The fourteen operations of R58, one constructor each. The opcode table spells RX_DATA in
eight rows, because the data bytes are no single mask and match (R65): they are one operation. -/

namespace Sys2Proof

/-- One atomic operation of one agent (R58). -/
inductive Instr where
  /-- RX_DATA(b): a data byte is stored and the cursor advances (R80). -/
  | rxData (b : Byte)
  /-- RX_SENTINEL(b): the sentinel restarts the frame at offset 0 (R82). -/
  | rxSentinel (b : Byte)
  /-- RX_DROP(b): a byte that finds the buffer closed is discarded (R84). -/
  | rxDrop (b : Byte)
  /-- RX_NONE: an activation that finds no byte (R79). -/
  | rxNone
  /-- DP_POLL: the pump reads the readiness flag (R94). -/
  | dpPoll
  /-- FB_READ(off): Display reads one byte of the frame (R97). -/
  | fbRead (off : Nat)
  /-- DRAW_DONE: Display returns from `draw` (R99). -/
  | drawDone
  /-- DP_RELEASE: the pump gives the buffer back to the receiver (R98). -/
  | dpRelease
  /-- TG_SUBMIT(x), accepted by the idle gate (R107). -/
  | tgSubmitAccepted (x : Payload)
  /-- TG_SUBMIT(x), held off by the busy gate (R108). -/
  | tgSubmitBlocked (x : Payload)
  /-- TG_QUERY: the gate's flag is read and the completion interrupt armed (R109). -/
  | tgQuery
  /-- BUS_COMPLETE: DisplayBus finishes the outstanding transfer (R110). -/
  | busComplete
  /-- TG_IRQ: the completion interrupt's handler (R111). -/
  | tgIrq
  /-- RESET: power-up (R147). -/
  | reset
  deriving DecidableEq, Repr

end Sys2Proof
end

