-- ==== Sys2Proof/WellFormed.lean ====
section
/-! DEFINITION. Which operations have operands of the form their rules give them. -/

namespace Sys2Proof

/-- A payload is one bus word of `WORD_W` bits (R105); where the width is open any payload is one. -/
def Params.fitsWord (p : Params) (x : Payload) : Bool :=
  match p.wordW with
  | none => true
  | some n => decide (x < 2 ^ n)

/-- The operand conditions of the operation rules: RX_DATA's byte is not the sentinel (R80), RX_SENTINEL's
byte is (R82), a payload is one bus word (R105). FB_READ's range is no matter of form: it is an enabling
condition, which the operation itself tests (R97). -/
def Instr.wf (p : Params) : Instr → Bool
  | .rxData b => decide (b ≠ p.sentinel)
  | .rxSentinel b => decide (b = p.sentinel)
  | .rxDrop _ => true
  | .rxNone => true
  | .dpPoll => true
  | .fbRead _ => true
  | .drawDone => true
  | .dpRelease => true
  | .tgSubmitAccepted x => p.fitsWord x
  | .tgSubmitBlocked x => p.fitsWord x
  | .tgQuery => true
  | .busComplete => true
  | .tgIrq => true
  | .reset => true

end Sys2Proof
end

