-- ==== Sys2Proof/Decode.lean ====
section
/-! DEFINITION. From a request to an operation and back. The block decodes one thing bit by bit, the byte
on the wire (R57, R65); every other operation is selected by which agent asks (R58). Three operations share
one wire byte and two share one submit request; the state tells them apart (R58, R77), so the decoder takes
what it needs of the state as a `Selection`. -/

namespace Sys2Proof

/-- What an agent asks of the block: one entry of the schedule (R10). The names of R70 stand beside each. -/
inductive Request where
  /-- SerialLink invokes the byte-received handler; `bytes` is what `tryReadByte` then yields: one byte or
  none (R70, R141). The decoder rejects more, which SerialLink never delivers (R11). -/
  | rx (bytes : List Byte)
  /-- The pump polls `ready`. -/
  | dpPoll
  /-- Display reads `buffer[off]`. -/
  | fbRead (off : Nat)
  /-- `Display.draw` returns. -/
  | drawDone
  /-- The pump sets `ready = false`. -/
  | dpRelease
  /-- `DisplayBus.submit(word)`. -/
  | tgSubmit (x : Payload)
  /-- `DisplayBus.isBusy()`. -/
  | tgQuery
  /-- The bus's completion signal. -/
  | busComplete
  /-- The bus's completion interrupt is taken. -/
  | tgIrq
  /-- Power-up. -/
  | powerUp
  deriving DecidableEq, Repr

/-- The conditions of the state by which one request means one or another operation, or none (R58). -/
structure Selection where
  /-- The ownership test of R77: a byte that arrives now is dropped. -/
  closed : Bool
  /-- The gate is Busy (R106): a submission that arrives now is blocked. -/
  busy : Bool
  /-- A TG_SUBMIT of the present draw has not been accepted: Display does not return from `draw` (R99). -/
  stalled : Bool
  deriving DecidableEq, Repr

/-- Why a request has no operation. -/
inductive DecodeError where
  /-- SerialLink delivered two bytes in one activation, which it never does (R11, R73). -/
  | twoBytesInOneActivation
  /-- Display returned from `draw` with a submission of that draw not accepted, which it never does (R99, R101). -/
  | displayStalled
  deriving DecidableEq, Repr

/-- The class of a wire byte (R57). -/
inductive ByteClass where
  | data
  | sentinel
  deriving DecidableEq, Repr

/-- The class of a byte: the sentinel by equality over all 8 bits, data otherwise (R57, R61). -/
def classify (p : Params) (b : Byte) : ByteClass :=
  if b = p.sentinel then .sentinel else .data

/-- One row of the wire map of R65. -/
structure WireRow where
  mask : Byte
  pattern : Byte
  cls : ByteClass
  deriving DecidableEq, Repr

/-- The wire map of R65 for the default sentinel: eight data rows and the sentinel's. -/
def wireTable : List WireRow :=
  [ ⟨0x80, 0x00, .data⟩, ⟨0xC0, 0x80, .data⟩, ⟨0xE0, 0xC0, .data⟩, ⟨0xF0, 0xE0, .data⟩,
    ⟨0xF8, 0xF0, .data⟩, ⟨0xFC, 0xF8, .data⟩, ⟨0xFE, 0xFC, .data⟩, ⟨0xFF, 0xFE, .data⟩,
    ⟨0xFF, 0xFF, .sentinel⟩ ]

/-- A byte matches a row of the wire map: its bits under the mask are the row's. -/
def rowMatches (b : Byte) (r : WireRow) : Bool := b &&& r.mask == r.pattern

/-- The operation a delivered byte selects (R77): the ownership test comes before the sentinel test. -/
def decodeByte (p : Params) (closed : Bool) (b : Byte) : Instr :=
  if closed then .rxDrop b
  else match classify p b with
    | .sentinel => .rxSentinel b
    | .data => .rxData b

/-- The operation a request selects in a state that `sel` describes (R58, R77, R107, R108). Display "returns from
`draw`" (R58) only when every TG_SUBMIT of this draw has been accepted (R99, D13): before that, DRAW_DONE is
not selected (R115). -/
def decode (p : Params) (sel : Selection) : Request → Except DecodeError Instr
  | .rx [] => .ok .rxNone
  | .rx [b] => .ok (decodeByte p sel.closed b)
  | .rx (_ :: _ :: _) => .error .twoBytesInOneActivation
  | .dpPoll => .ok .dpPoll
  | .fbRead off => .ok (.fbRead off)
  | .drawDone => if sel.stalled then .error .displayStalled else .ok .drawDone
  | .dpRelease => .ok .dpRelease
  | .tgSubmit x => .ok (if sel.busy then .tgSubmitBlocked x else .tgSubmitAccepted x)
  | .tgQuery => .ok .tgQuery
  | .busComplete => .ok .busComplete
  | .tgIrq => .ok .tgIrq
  | .powerUp => .ok .reset

/-- The request that carries an operation: on the wire the byte itself (R57), else the asking agent's call. -/
def encode : Instr → Request
  | .rxData b => .rx [b]
  | .rxSentinel b => .rx [b]
  | .rxDrop b => .rx [b]
  | .rxNone => .rx []
  | .dpPoll => .dpPoll
  | .fbRead off => .fbRead off
  | .drawDone => .drawDone
  | .dpRelease => .dpRelease
  | .tgSubmitAccepted x => .tgSubmit x
  | .tgSubmitBlocked x => .tgSubmit x
  | .tgQuery => .tgQuery
  | .busComplete => .busComplete
  | .tgIrq => .tgIrq
  | .reset => .powerUp

/-- The "selected by" column of R58, as far as it speaks of the state; and for DRAW_DONE, of which the column says
only that Display returns, R99's condition on that return. DEDUCED, safe; notes/assumptions/8.md. -/
def Instr.selectedBy (sel : Selection) : Instr → Bool
  | .rxData _ => !sel.closed
  | .rxSentinel _ => !sel.closed
  | .rxDrop _ => sel.closed
  | .rxNone => true
  | .dpPoll => true
  | .fbRead _ => true
  | .drawDone => !sel.stalled
  | .dpRelease => true
  | .tgSubmitAccepted _ => !sel.busy
  | .tgSubmitBlocked _ => sel.busy
  | .tgQuery => true
  | .busComplete => true
  | .tgIrq => true
  | .reset => true

/-- R58's numbering of the operations, for tables and traces; no hardware encoding. -/
def Instr.opIndex : Instr → Nat
  | .rxData _ => 0
  | .rxSentinel _ => 1
  | .rxDrop _ => 2
  | .rxNone => 3
  | .dpPoll => 4
  | .fbRead _ => 5
  | .drawDone => 6
  | .dpRelease => 7
  | .tgSubmitAccepted _ => 8
  | .tgSubmitBlocked _ => 9
  | .tgQuery => 10
  | .busComplete => 11
  | .tgIrq => 12
  | .reset => 13

/-- The first `n` bytes of a table word, the least significant first. -/
def wordBytes : Nat → Nat → List Byte
  | 0, _ => []
  | n + 1, w => BitVec.ofNat 8 w :: wordBytes n (w / 256)

/-- What a table word puts on the wire: its bytes, delivered in one activation. Only format WIRE8 has bits,
one byte of them; a longer word is rejected by `decode`. -/
def wordRequest (nbits w : Nat) : Request := .rx (wordBytes ((nbits + 7) / 8) w)

/-- The operation the decoder reads from a table word, with the default parameters, while the receiver owns
the buffer, the gate is idle and no draw has anything stalled, as after reset (R34). -/
def decodeTableWord (nbits w : Nat) : Option Instr :=
  match decode Params.default { closed := false, busy := false, stalled := false } (wordRequest nbits w) with
  | .ok i => some i
  | .error _ => none

end Sys2Proof
end

