-- ==== Sys2Proof/Machine/State.lean ====
section
/-! DEFINITION. The state: the seven elements of R32, and the model's own fields, which say so. Here too: why
a step can stop, and the state after reset. -/

namespace Sys2Proof.Machine

/-- The pump's place in its loop (R26). -/
inductive Phase where
  /-- Before a poll succeeds. -/
  | poll
  /-- Inside the blocking `draw` call. -/
  | draw
  /-- The call has returned, the buffer is not yet released. -/
  | done
  deriving DecidableEq, Repr

/-- The contents of the frame storage: the bytes written since power-up, by offset. An offset that is not
listed holds no value, since R34 leaves `FB.storage` unspecified after reset. -/
abbrev Memory := List Host.Cell

/-- What an operation returns to its requester (`return v` of R13). -/
inductive Returned where
  /-- One bit: DP_POLL's `ready` (R94), TG_QUERY's `busy` (R109). -/
  | bit (r : Bool)
  /-- One byte: FB_READ's (R97). -/
  | byte (v : Byte)
  /-- TG_SUBMIT was accepted (R107). -/
  | accepted
  /-- TG_SUBMIT was not accepted and its requester repeats it (`stall` of R13; R108). -/
  | stalled
  deriving DecidableEq, Repr

/-- An output of the block to an agent of the environment (`emit` of R13). -/
inductive Emission where
  /-- DRAW_START, to Display (R94, R95): the whole storage, the origin and the display size in pixels. -/
  | drawStart (buffer : Memory) (x y width height : Nat)
  /-- BUS_START, to DisplayBus (R107): the payload of an accepted transfer. -/
  | busStart (x : Payload)
  deriving DecidableEq, Repr

/-- The machine. The first seven fields are R32's table, which R27 calls complete; the rest are the model's
own. -/
structure State where
  /-- `FB.storage` (R16). -/
  storage : Memory
  /-- `FB.cursor` (R15): the next write offset, 0 to `CAPACITY`. -/
  cursor : Nat
  /-- `FB.ready` (R17): a complete frame stands in the storage; the consumer owns the buffer (R40). -/
  ready : Bool
  /-- `TG.busy` (R23). -/
  busy : Bool
  /-- `TG.armed` (R24): the completion interrupt is enabled. -/
  armed : Bool
  /-- `DP.phase` (R26). -/
  phase : Phase
  /-- `ENV.bus_active` (R28): DisplayBus has a transfer outstanding. -/
  busActive : Bool
  /-- Model's own: the parameters of R8, which no operation writes. -/
  params : Params
  /-- Model's own: the order in which agents will ask, oldest first. R33 leaves it to the environment and the
  scheduler; a statement about every state quantifies over it. -/
  inbox : List Request
  /-- Model's own: the payloads that stalled and that Display, which keeps them (R108), has yet to see accepted,
  each once, in the order they stalled. -/
  held : List Payload
  /-- Model's own: those of them that Display submitted in the present draw, each once. Not empty: not every
  TG_SUBMIT of this draw has been accepted, and Display does not return from `draw` (R99). -/
  drawHeld : List Payload
  /-- Model's own: the value returned by the latest operation that returned one. -/
  returned : Option Returned
  /-- Model's own: every output so far, oldest first. -/
  emitted : List Emission
  deriving DecidableEq, Repr

/-- A machine stop. R118: no operation faults; both of these stand in the storage primitives alone (R13) and
no operation reaches either. Safe: a machine that stops proves nothing false. -/
inductive Fault where
  /-- Raised by `memWrite`: a write at an offset that does not exist (R38). -/
  | writeOutOfBounds (off : Nat)
  /-- Raised by `memRead`: a read at an offset that does not exist (R38). -/
  | readOutOfBounds (off : Nat)
  deriving DecidableEq, Repr

/-- Why an operation has no step here (`refuse` of R13). All are safe: the run ends, nothing is made up. -/
inductive Refusal where
  /-- Raised by `exec`'s arm of an operation without a meaning; no arm raises it. -/
  | notModelled (mnemonic : String)
  /-- Raised by `step`: the geometry does not divide into whole bytes, or a parameter is not positive (R8). -/
  | badConfiguration
  /-- Raised by `step`: two bytes in one activation, which SerialLink never delivers (R11). -/
  | twoBytesInOneActivation
  /-- Raised by `step`: Display is said to return from `draw` while a submission of this draw is not
  accepted, which it never does (R99, R101, R123). -/
  | displayStalled
  /-- Raised by `step`: a payload that is no bus word of `WORD_W` bits (R105). -/
  | illFormed
  /-- Raised by RX_DATA and RX_SENTINEL where R77 selects RX_DROP. -/
  | bufferClosed
  /-- Raised by RX_DROP where R77 selects RX_DATA or RX_SENTINEL. -/
  | bufferOpen
  /-- Raised by RX_DATA for the sentinel byte, where R77 selects RX_SENTINEL. -/
  | byteIsSentinel
  /-- Raised by RX_SENTINEL for a data byte, where R77 selects RX_DATA. -/
  | byteIsData
  /-- Raised by DP_POLL outside phase POLL (R94). -/
  | pumpNotPolling
  /-- Raised by DRAW_DONE outside phase DRAW (R99). -/
  | pumpNotDrawing
  /-- Raised by DP_RELEASE outside phase DONE (R98). -/
  | drawNotDone
  /-- Raised by FB_READ outside phase DRAW (R97). -/
  | readOutsideDraw
  /-- Raised by FB_READ while the receiver owns the buffer (R97). -/
  | readNotOwned
  /-- Raised by FB_READ at an offset that does not exist (R38, R97). -/
  | readOutOfRange
  /-- Raised by FB_READ for a byte nothing has written since power-up (R34). No run reaches it (R21). -/
  | readUnspecified
  /-- Raised by an accepted TG_SUBMIT where R108 selects the blocked one. -/
  | gateBusy
  /-- Raised by a blocked TG_SUBMIT where R107 selects the accepted one. -/
  | gateIdle
  /-- Raised by BUS_COMPLETE with no transfer outstanding (R110). -/
  | noTransferOutstanding
  /-- Raised by TG_IRQ while the completion interrupt is not pending (R111, R126). -/
  | completionNotPending
  deriving DecidableEq, Repr

/-- The outcome of one operation. -/
abbrev Result := Host.Outcome State Fault Refusal

/-- The state after power-up with given parameters (R34). -/
def State.resetWith (p : Params) : State :=
  { storage := [], cursor := 0, ready := false, busy := false, armed := false, phase := .poll,
    busActive := false, params := p, inbox := [], held := [], drawHeld := [], returned := none, emitted := [] }

/-- The state after power-up (R34), with the source's parameters. -/
def State.reset : State := State.resetWith Params.default

/-- Writes `FB.storage`. -/
def State.setStorage (s : State) (m : Memory) : State := { s with storage := m }
/-- Writes `FB.cursor`. -/
def State.setCursor (s : State) (k : Nat) : State := { s with cursor := k }
/-- Writes `FB.ready`. -/
def State.setReady (s : State) (v : Bool) : State := { s with ready := v }
/-- Writes `TG.busy`. -/
def State.setBusy (s : State) (v : Bool) : State := { s with busy := v }
/-- Writes `TG.armed`. -/
def State.setArmed (s : State) (v : Bool) : State := { s with armed := v }
/-- Writes `DP.phase`. -/
def State.setPhase (s : State) (v : Phase) : State := { s with phase := v }
/-- Writes `ENV.bus_active`. -/
def State.setBusActive (s : State) (v : Bool) : State := { s with busActive := v }
/-- Replaces the schedule still to come. -/
def State.setInbox (s : State) (q : List Request) : State := { s with inbox := q }
/-- Replaces what Display keeps. -/
def State.setHeld (s : State) (l : List Payload) : State := { s with held := l }
/-- Replaces what Display has submitted in the present draw and not seen accepted. -/
def State.setDrawHeld (s : State) (l : List Payload) : State := { s with drawHeld := l }
/-- Hands a value to the requester (`return v` of R13). -/
def State.setReturned (s : State) (r : Returned) : State := { s with returned := some r }
/-- Puts out one output (`emit` of R13). -/
def State.addEmitted (s : State) (e : Emission) : State := { s with emitted := s.emitted ++ [e] }

end Sys2Proof.Machine
end

