-- ==== Sys2Proof/Machine/Operands.lean ====
section
/-! DEFINITION. What is computed from the parameters, and the operands an operation takes from the state. -/

namespace Sys2Proof

/-- `CAPACITY = WIDTH * HEIGHT * BPP / 8`: the frame length in bytes (R18, R63). -/
def Params.capacity (p : Params) : Nat := p.width * p.height * p.bpp / 8

/-- `CURSOR_W`: the least `n` with `2^n > CAPACITY` (R8). -/
def Params.cursorW (p : Params) : Nat := if p.capacity = 0 then 0 else Nat.log2 p.capacity + 1

/-- The constraints of R8: positive integers, and a geometry that divides into whole bytes. -/
def Params.valid (p : Params) : Bool :=
  decide (0 < p.width) && decide (0 < p.height) && decide (0 < p.bpp) &&
    decide (p.width * p.height * p.bpp % 8 = 0) && decide (p.wordW ≠ some 0)

namespace Machine

/-- `CAPACITY` of this machine. -/
def State.capacity (s : State) : Nat := s.params.capacity

/-- The offset at which the next byte is stored: not carried on the wire, but the cursor (R62). -/
def storeOffset (s : State) : Nat := s.cursor

/-- `cursor + 1`, computed in `CURSOR_W` bits (R78). -/
def advance (p : Params) (k : Nat) : Nat := (k + 1) % 2 ^ p.cursorW

/-- What DRAW_START carries (R94, R95): the whole storage, the origin, the display size. -/
def drawStart (s : State) : Emission := .drawStart s.storage 0 0 s.params.width s.params.height

end Machine

end Sys2Proof
end

