-- ==== Sys2Proof/Machine/Flags.lean ====
section
/-! DEFINITION. The conditions computed from the flags of R31, and the one flag computed from a result. -/

namespace Sys2Proof.Machine

/-- The ownership test of R77, `ready = 1 or cursor = CAPACITY`, written as the complement of the
precondition `cursor < CAPACITY` of R80 and R82. DEDUCED: the two agree for every legal cursor (R15); past
`CAPACITY`, where no cursor stands, this one drops the byte too. Safe; notes/assumptions/5.md. -/
def bufferClosed (s : State) : Bool := s.ready || decide (s.capacity ≤ s.cursor)

/-- The value RX_DATA gives `FB.ready`: set when the new cursor is `CAPACITY`, else as it was (R80). -/
def readyAfter (s : State) (k : Nat) : Bool := s.ready || decide (k = s.capacity)

/-- The completion interrupt is pending: armed, and no transfer outstanding (R126). -/
def completionPending (s : State) : Bool := s.armed && !s.busActive

/-- A submission of the present draw has not been accepted, so Display does not return from `draw` (R99, D13,
R115). What stalled outside the draw does not count. DEDUCED, safe; notes/assumptions/8.md. -/
def displayStalled (s : State) : Bool := !s.drawHeld.isEmpty

/-- What of the state tells one operation of a request from another (R58). -/
def selection (s : State) : Selection :=
  { closed := bufferClosed s, busy := s.busy, stalled := displayStalled s }

end Sys2Proof.Machine
end

