-- ==== Sys2Proof/Machine/Ops.lean ====
section
/-! DEFINITION. The primitives of R13 over storage and state, and the interrupt activation that RXI and CPI
share: the block's only form of exception (R118, R127). -/

namespace Sys2Proof.Machine

/-- The byte a list of cells holds at an offset, if it holds one. -/
def Memory.read : Memory → Nat → Option Byte
  | [], _ => none
  | (k, v) :: m, a => if a = k then some v else Memory.read m a

/-- The list of cells with one byte changed; rising offsets stay rising. -/
def Memory.write : Memory → Nat → Byte → Memory
  | [], a, w => [(a, w)]
  | (k, v) :: m, a, w =>
    if a < k then (a, w) :: (k, v) :: m
    else if a = k then (a, w) :: m
    else (k, v) :: Memory.write m a w

/-- Every offset of a list of cells is above a bound. -/
def Memory.above (b : Nat) : Memory → Bool
  | [] => true
  | (k, _) :: m => decide (b < k) && Memory.above b m

/-- The canonical form: offsets strictly rising. An offset without a value is never listed, so no entry can
equal what an unlisted offset reads as. -/
def Memory.wf : Memory → Bool
  | [] => true
  | (k, _) :: m => Memory.above k m && Memory.wf m

/-- `MemWrite(off, 1, v)` (R13): one byte at an offset that must exist (R38). -/
def memWrite (off : Nat) (v : Byte) (s : State) : Result :=
  if off < s.capacity then .next (s.setStorage (Memory.write s.storage off v))
  else .fault (.writeOutOfBounds off)

/-- `MemRead(off, 1)` (R13): the byte at an offset that must exist (R38); no side effect. A byte that R34
leaves unspecified is refused. -/
def memRead (off : Nat) (s : State) : Host.Outcome Byte Fault Refusal :=
  if off < s.capacity then
    match Memory.read s.storage off with
    | some v => .next v
    | none => .refused .readUnspecified
  else .fault (.readOutOfBounds off)

/-- Taking an interrupt (R127, R128): nothing is saved, no mode, mask or stack changes, and the handler is
fixed, so control goes to no address. -/
def enterHandler (s : State) : State := s

/-- Returning from a handler (R129): it returns by finishing, and there is nothing to restore. -/
def leaveHandler (s : State) : State := s

/-- One activation of the interrupt context (R127): the handler runs whole, between two operations of the
other agents, and cannot itself be interrupted (R74, R129). RX_BYTE for RXI, TG_IRQ for CPI. -/
def activation (handler : State → Result) (s : State) : Result :=
  match handler (enterHandler s) with
  | .next t => .next (leaveHandler t)
  | .fault f => .fault f
  | .refused r => .refused r

/-- What Display keeps once a submission of `x` has stalled: the payload stays with its requester, and stalling
again changes nothing (R108). -/
def keepPayload (x : Payload) (l : List Payload) : List Payload := if x ∈ l then l else l ++ [x]

/-- What Display keeps once `x` has been accepted. -/
def handOver (x : Payload) (l : List Payload) : List Payload := l.erase x

/-- An operation that has a step only under a condition (`refuse` of R13). -/
def enabledWhen (c : Bool) (r : Refusal) (op : State → Result) (s : State) : Result :=
  if c then op s else .refused r

end Sys2Proof.Machine
end

