-- ==== Sys2Proof/Machine/FrameReceiver.lean ====
section
/-! DEFINITION. The FrameReceiver's operations (spec/40_frame_receiver.md): the four outcomes of one
activation RX_BYTE. Which of them a delivered byte becomes, `decodeByte` says (R77). -/

namespace Sys2Proof.Machine

/-- The handler's work in RX_DATA (R80): store at the cursor, advance, set `ready` at the last offset. -/
def storeData (b : Byte) (s : State) : Result :=
  match memWrite (storeOffset s) b s with
  | .next t =>
    let k := advance s.params s.cursor
    .next ((t.setCursor k).setReady (readyAfter s k))
  | .fault f => .fault f
  | .refused r => .refused r

/-- The handler's work in RX_SENTINEL (R82): store at the cursor, then the cursor to 0; `ready` is not
written, since 0 is not `CAPACITY` (R83). -/
def storeSentinel (b : Byte) (s : State) : Result :=
  match memWrite (storeOffset s) b s with
  | .next t => .next (t.setCursor 0)
  | .fault f => .fault f
  | .refused r => .refused r

/-- RX_DATA(b) (R80). -/
def execRxData (b : Byte) (s : State) : Result :=
  enabledWhen (!bufferClosed s) .bufferClosed
    (enabledWhen (decide (b ≠ s.params.sentinel)) .byteIsSentinel (activation (storeData b))) s

/-- RX_SENTINEL(b) (R82). -/
def execRxSentinel (b : Byte) (s : State) : Result :=
  enabledWhen (!bufferClosed s) .bufferClosed
    (enabledWhen (decide (b = s.params.sentinel)) .byteIsData (activation (storeSentinel b))) s

/-- RX_DROP(b) (R84): the byte is lost, the sentinel like any other, and nothing records it. -/
def execRxDrop (_b : Byte) (s : State) : Result :=
  enabledWhen (bufferClosed s) .bufferOpen (activation .next) s

/-- RX_NONE (R79). -/
def execRxNone (s : State) : Result := activation .next s

end Sys2Proof.Machine
end

