-- ==== Sys2Proof/Machine/Handoff.lean ====
section
/-! DEFINITION. The consumer's operations on the frame buffer (spec/41_readiness_handoff.md): the pump's loop
and Display's read. -/

namespace Sys2Proof.Machine

/-- A poll (R94): on `ready = 1` the draw starts; `ready` is read, not written. -/
def poll (s : State) : Result :=
  if s.ready then .next (((s.setPhase .draw).addEmitted (drawStart s)).setReturned (.bit true))
  else .next (s.setReturned (.bit false))

/-- The read itself (R97). -/
def readFrame (off : Nat) (s : State) : Result :=
  match memRead off s with
  | .next v => .next (s.setReturned (.byte v))
  | .fault f => .fault f
  | .refused r => .refused r

/-- DP_POLL (R94). -/
def execDpPoll (s : State) : Result :=
  enabledWhen (decide (s.phase = .poll)) .pumpNotPolling poll s

/-- FB_READ(off) (R97). -/
def execFbRead (off : Nat) (s : State) : Result :=
  enabledWhen (decide (s.phase = .draw)) .readOutsideDraw
    (enabledWhen s.ready .readNotOwned
      (enabledWhen (decide (off < s.capacity)) .readOutOfRange (readFrame off))) s

/-- DRAW_DONE (R99). The gate may still be Busy with the last transfer. That every TG_SUBMIT of this draw has been
accepted is a condition of Display's returning at all: `decode` turns away a return it cannot make, so no step
runs this then. -/
def execDrawDone (s : State) : Result :=
  enabledWhen (decide (s.phase = .draw)) .pumpNotDrawing (fun s => .next (s.setPhase .done)) s

/-- DP_RELEASE (R98): three writes, one atomic step (R43); the storage keeps its bytes. -/
def execDpRelease (s : State) : Result :=
  enabledWhen (decide (s.phase = .done)) .drawNotDone
    (fun s => .next (((s.setCursor 0).setReady false).setPhase .poll)) s

end Sys2Proof.Machine
end

