-- ==== Sys2Proof/Machine/PowerUp.lean ====
section
/-! DEFINITION. RESET (spec/70_reset_and_hazards.md). -/

namespace Sys2Proof.Machine

/-- What power-up makes of a state: every element of the block at its reset value, the storage unspecified
(R34). Display starts afresh, keeping nothing and in no draw (R146). The rest of the model's own fields stay: the parameters are
constants (R18), the schedule and what was returned and put out belong to the environment (R33, R13). DESIGN CHOICE,
safe; notes/assumptions/13.md. -/
def powerUpState (s : State) : State :=
  { State.resetWith s.params with inbox := s.inbox, returned := s.returned, emitted := s.emitted }

/-- RESET (R147). -/
def execReset (s : State) : Result := .next (powerUpState s)

end Sys2Proof.Machine
end

