-- ==== Sys2Proof/Machine/TransferGate.lean ====
section
/-! DEFINITION. The busy/ready gate (spec/42_transfer_gate.md): one outstanding transfer, cleared by a
completion interrupt that a query or a blocked submission arms. -/

namespace Sys2Proof.Machine

/-- TG_SUBMIT(x) by an idle gate (R107): `busy` and the bus's level rise in one step (R159). Display has handed
`x` over. -/
def execTgSubmitAccepted (x : Payload) (s : State) : Result :=
  enabledWhen (!s.busy) .gateBusy
    (fun s => .next (((((s.setBusy true).setBusActive true).setHeld (handOver x s.held)).addEmitted
      (.busStart x)).setReturned .accepted)) s

/-- TG_SUBMIT(x) by a busy gate (R108): it arms and stalls; Display keeps `x` and repeats it. -/
def execTgSubmitBlocked (x : Payload) (s : State) : Result :=
  enabledWhen s.busy .gateIdle
    (fun s => .next (((s.setArmed true).setHeld (keepPayload x s.held)).setReturned .stalled)) s

/-- TG_QUERY (R109): returns the flag as it was, and arms. -/
def execTgQuery (s : State) : Result :=
  .next ((s.setArmed true).setReturned (.bit s.busy))

/-- BUS_COMPLETE (R110): the bus's level falls; `busy` is TG_IRQ's to clear. -/
def execBusComplete (s : State) : Result :=
  enabledWhen s.busActive .noTransferOutstanding (fun s => .next (s.setBusActive false)) s

/-- TG_IRQ (R111): the completion interrupt's activation; the arming is used up (R112). -/
def execTgIrq (s : State) : Result :=
  enabledWhen (completionPending s) .completionNotPending
    (activation fun s => .next ((s.setBusy false).setArmed false)) s

end Sys2Proof.Machine
end

