-- ==== Sys2Proof/Machine/Dispatch.lean ====
section
/-! DEFINITION. The operation set of R58: one arm per operation. -/

namespace Sys2Proof.Machine

def exec (i : Instr) (s : State) : Host.Outcome State Fault Refusal :=
  match i with
  | .rxData b => Sys2Proof.Machine.execRxData b s
  | .rxSentinel b => Sys2Proof.Machine.execRxSentinel b s
  | .rxDrop b => Sys2Proof.Machine.execRxDrop b s
  | .rxNone => Sys2Proof.Machine.execRxNone s
  | .dpPoll => Sys2Proof.Machine.execDpPoll s
  | .fbRead off => Sys2Proof.Machine.execFbRead off s
  | .drawDone => Sys2Proof.Machine.execDrawDone s
  | .dpRelease => Sys2Proof.Machine.execDpRelease s
  | .tgSubmitAccepted x => Sys2Proof.Machine.execTgSubmitAccepted x s
  | .tgSubmitBlocked x => Sys2Proof.Machine.execTgSubmitBlocked x s
  | .tgQuery => Sys2Proof.Machine.execTgQuery s
  | .busComplete => Sys2Proof.Machine.execBusComplete s
  | .tgIrq => Sys2Proof.Machine.execTgIrq s
  | .reset => Sys2Proof.Machine.execReset s

end Sys2Proof.Machine
end

