-- ==== Sys2Proof/Machine/Fetch.lean ====
section
/-! DEFINITION. What the next step runs. There is no program counter (R30): the next operation is the next
request of the schedule, read in the state it meets (R47, R58). -/

namespace Sys2Proof.Machine

/-- What `fetch` finds. -/
inductive Fetched where
  /-- No agent asks for anything. -/
  | idle
  /-- An operation, and the state it runs in: the request has left the schedule, and Display has noted what the
  operation makes of its draw. -/
  | run (i : Instr) (s : State)
  /-- The request has no operation. -/
  | stop (r : Refusal)

/-- The refusal of a request that does not decode. -/
def decodeRefusal : DecodeError → Refusal
  | .twoBytesInOneActivation => .twoBytesInOneActivation
  | .displayStalled => .displayStalled

/-- The submissions of the present draw that are not accepted, once an operation runs: a draw begins with none; a
submission that stalls in a draw is one of them (R93, R108), whether or not its payload stalled before; its
acceptance ends that (R107). What stalls in another phase is no TG_SUBMIT of a draw, and counts for none (R99). -/
def drawRecord (s : State) : Instr → List Payload
  | .rxData _ => s.drawHeld
  | .rxSentinel _ => s.drawHeld
  | .rxDrop _ => s.drawHeld
  | .rxNone => s.drawHeld
  | .dpPoll => if s.ready then [] else s.drawHeld
  | .fbRead _ => s.drawHeld
  | .drawDone => s.drawHeld
  | .dpRelease => s.drawHeld
  | .tgSubmitAccepted x => handOver x s.drawHeld
  | .tgSubmitBlocked x => if s.phase = .draw then keepPayload x s.drawHeld else s.drawHeld
  | .tgQuery => s.drawHeld
  | .busComplete => s.drawHeld
  | .tgIrq => s.drawHeld
  | .reset => s.drawHeld

/-- Display's note of an operation that is about to run. It is Display's, outside the block: no operation of the
block reads it, so that gate operations read no phase (R132). DESIGN CHOICE, safe; notes/assumptions/22.md. -/
def noteDraw (i : Instr) (s : State) : State := s.setDrawHeld (drawRecord s i)

/-- The next request, decoded in this state. A configuration that R8 does not admit is refused at once. -/
def fetch (s : State) : Fetched :=
  if s.params.valid then
    match s.inbox with
    | [] => .idle
    | r :: rest =>
      match decode s.params (selection s) r with
      | .ok i => if i.wf s.params then .run i (noteDraw i (s.setInbox rest)) else .stop .illFormed
      | .error e => .stop (decodeRefusal e)
  else .stop .badConfiguration

/-- A step in which no agent asks for anything: nothing changes (R153's quiescent state is not final).
DESIGN CHOICE, safe; notes/assumptions/2.md. -/
def idleStep (s : State) : State := s

/-- The schedule with a request at its head. -/
def askFirst (s : State) (r : Request) : State := s.setInbox (r :: s.inbox)

end Sys2Proof.Machine
end

