-- ==== Sys2Proof/Machine/Step.lean ====
section
/-! DEFINITION. One step: the next operation of the total order (R47). -/

namespace Sys2Proof.Machine

/-- One step of the machine. -/
def step (s : State) : Host.Outcome State Fault Refusal :=
  match fetch s with
  | .idle => .next (idleStep s)
  | .run i t => exec i t
  | .stop r => .refused r

/-- The state in which the next step meets a table word: its bytes are the next that SerialLink delivers. -/
def State.withFetchWord (s : State) (nbits w : Nat) : State := askFirst s (wordRequest nbits w)

end Sys2Proof.Machine
end

