-- ==== Sys2Proof/Machine/Agents.lean ====
section
/-! DEFINITION. Who asks for and who performs which operation (R9, R58), in which context (R135), on which part
of the state (R132). No step reads these; claims do. -/

namespace Sys2Proof

/-- The six agents of R9, and the seventh that R9 names beside them, power-up. -/
inductive Agent where
  /-- FrameReceiver, in the interrupt context. -/
  | frameReceiver
  /-- DisplayPump, in the main loop. -/
  | displayPump
  /-- TransferGate's completion handler, in the interrupt context. -/
  | completionHandler
  /-- Display, external; it runs inside the pump's `draw` call. -/
  | display
  /-- DisplayBus, external. -/
  | displayBus
  /-- SerialLink with the remote sender, external: it chooses the next byte and when RX_BYTE fires, and performs
  no operation of R58. -/
  | serialLink
  /-- Power-up (R147). -/
  | powerUp
  deriving DecidableEq, Repr

/-- The contexts of R135, and what lies outside both. -/
inductive Context where
  | interrupt
  | mainLoop
  | outside
  deriving DecidableEq, Repr

/-- The column of R9 that says which agents are part of the block; power-up, which it does not list, is none. -/
def Agent.inside : Agent → Bool
  | .frameReceiver => true
  | .displayPump => true
  | .completionHandler => true
  | .display => false
  | .displayBus => false
  | .serialLink => false
  | .powerUp => false

/-- The "agent" column of R58: the agent that performs the operation. -/
def Instr.agent : Instr → Agent
  | .rxData _ => .frameReceiver
  | .rxSentinel _ => .frameReceiver
  | .rxDrop _ => .frameReceiver
  | .rxNone => .frameReceiver
  | .dpPoll => .displayPump
  | .fbRead _ => .display
  | .drawDone => .display
  | .dpRelease => .displayPump
  | .tgSubmitAccepted _ => .display
  | .tgSubmitBlocked _ => .display
  | .tgQuery => .display
  | .busComplete => .displayBus
  | .tgIrq => .completionHandler
  | .reset => .powerUp

/-- The agent that makes a request: an activation of the receiver, and the byte it finds, are SerialLink's choice
(R9, R11). -/
def Request.agent : Request → Agent
  | .rx _ => .serialLink
  | .dpPoll => .displayPump
  | .fbRead _ => .display
  | .drawDone => .display
  | .dpRelease => .displayPump
  | .tgSubmit _ => .display
  | .tgQuery => .display
  | .busComplete => .displayBus
  | .tgIrq => .completionHandler
  | .powerUp => .powerUp

/-- The agent that performs what an agent asks for: the receiver takes up what SerialLink delivers (R73, R9);
every other agent performs its own operations. -/
def Agent.performer : Agent → Agent
  | .serialLink => .frameReceiver
  | .frameReceiver => .frameReceiver
  | .displayPump => .displayPump
  | .completionHandler => .completionHandler
  | .display => .display
  | .displayBus => .displayBus
  | .powerUp => .powerUp

/-- Where an agent runs (R135): Display inside the pump's call, hence in the main loop. -/
def Agent.context : Agent → Context
  | .frameReceiver => .interrupt
  | .completionHandler => .interrupt
  | .displayPump => .mainLoop
  | .display => .mainLoop
  | .displayBus => .outside
  | .serialLink => .outside
  | .powerUp => .outside

/-- The context an operation runs in. -/
def Instr.context (i : Instr) : Context := i.agent.context

/-- The FrameBuffer operations of R132. -/
def Instr.isFrameOp : Instr → Bool
  | .rxData _ => true
  | .rxSentinel _ => true
  | .rxDrop _ => true
  | .rxNone => true
  | .dpPoll => true
  | .fbRead _ => true
  | .drawDone => true
  | .dpRelease => true
  | .tgSubmitAccepted _ => false
  | .tgSubmitBlocked _ => false
  | .tgQuery => false
  | .busComplete => false
  | .tgIrq => false
  | .reset => false

/-- The gate operations of R132. -/
def Instr.isGateOp : Instr → Bool
  | .rxData _ => false
  | .rxSentinel _ => false
  | .rxDrop _ => false
  | .rxNone => false
  | .dpPoll => false
  | .fbRead _ => false
  | .drawDone => false
  | .dpRelease => false
  | .tgSubmitAccepted _ => true
  | .tgSubmitBlocked _ => true
  | .tgQuery => true
  | .busComplete => true
  | .tgIrq => true
  | .reset => false

/-- The operations whose own rules ask for a phase of the pump (R94, R97, R98, R99). -/
def Instr.asksPhase : Instr → Bool
  | .rxData _ => false
  | .rxSentinel _ => false
  | .rxDrop _ => false
  | .rxNone => false
  | .dpPoll => true
  | .fbRead _ => true
  | .drawDone => true
  | .dpRelease => true
  | .tgSubmitAccepted _ => false
  | .tgSubmitBlocked _ => false
  | .tgQuery => false
  | .busComplete => false
  | .tgIrq => false
  | .reset => false

/-- The operations whose rules say `return`, and the blocked submission, whose requester learns that it is
not accepted (R94, R97, R107, R108, R109). -/
def Instr.returns : Instr → Bool
  | .rxData _ => false
  | .rxSentinel _ => false
  | .rxDrop _ => false
  | .rxNone => false
  | .dpPoll => true
  | .fbRead _ => true
  | .drawDone => false
  | .dpRelease => false
  | .tgSubmitAccepted _ => true
  | .tgSubmitBlocked _ => true
  | .tgQuery => true
  | .busComplete => false
  | .tgIrq => false
  | .reset => false

end Sys2Proof
end

