-- ==== Sys2Proof/Machine/Pseudo.lean ====
section
/-! DEFINITION. The pseudo-operations of R71, each expanded from the state it begins in: what it asks of the block
depends on what the block answers, so an expansion is computed by running it. The main loop is one cooperative
context (R135): between two operations of a pseudo-operation only the interrupt context and DisplayBus step, and
what they do there is the environment's choice and an argument here (R10, R33). -/

namespace Sys2Proof.Machine

/-- What may step between two operations of the main loop (R127, R135). -/
inductive Interruption where
  /-- An activation of the receiver, with a byte or without. -/
  | rx (b : Option Byte)
  /-- DisplayBus finishes the outstanding transfer. -/
  | busComplete
  /-- The completion interrupt is taken. -/
  | tgIrq
  deriving DecidableEq, Repr

/-- The request of an interruption. -/
def Interruption.request : Interruption → Request
  | .rx b => .rx b.toList
  | .busComplete => .busComplete
  | .tgIrq => .tgIrq

/-- What steps during a draw, in any number and order (R71, R93, R96): Display's three operations, and
interruptions. -/
inductive DrawStep where
  /-- FB_READ. -/
  | read (off : Nat)
  /-- TG_SUBMIT. -/
  | submit (x : Payload)
  /-- TG_QUERY. -/
  | query
  /-- Another agent's operation. -/
  | other (i : Interruption)
  deriving DecidableEq, Repr

/-- The request of a step of a draw. -/
def DrawStep.request : DrawStep → Request
  | .read off => .fbRead off
  | .submit x => .tgSubmit x
  | .query => .tgQuery
  | .other i => i.request

/-- A stretch of a run: what was asked, in order, and the state it ended in. -/
structure Stretch where
  asked : List Request
  final : State
  deriving DecidableEq, Repr

/-- One request, made now; `none` if the run stops. -/
def ask (r : Request) (s : State) : Option State :=
  match step (askFirst s r) with
  | .next t => some t
  | .fault _ => none
  | .refused _ => none

/-- Requests made one after the other. -/
def askAll : List Request → State → Option State
  | [], s => some s
  | r :: rest, s => (ask r s).bind (askAll rest)

/-- The value an operation has just returned meets the condition that a repetition waits for. -/
def answered (met : Returned → Bool) (s : State) : Bool := s.returned.any met

/-- "Repeat `r` until it returns what is waited for": it ends at the first attempt whose returned value meets the
condition. `waits` holds what other agents do after each attempt that does not; the repetition that is not over
when they are used up has no expansion among them. -/
def repeatUntil (met : Returned → Bool) (r : Request) : List (List Interruption) → State → Option Stretch
  | [], s => (ask r s).bind fun t => if answered met t then some ⟨[r], t⟩ else none
  | w :: waits, s =>
    (ask r s).bind fun t =>
      if answered met t then some ⟨[r], t⟩
      else (askAll (w.map Interruption.request) t).bind fun u =>
        (repeatUntil met r waits u).map fun k => ⟨r :: w.map Interruption.request ++ k.asked, k.final⟩

/-- FEED: the bytes of a stream, one activation each, in arrival order. -/
def feed (bytes : List Byte) : List Request := bytes.map fun b => .rx [b]

/-- SUBMIT_BLOCKING(x): repeat TG_SUBMIT(x) until it is accepted. -/
def submitBlocking (x : Payload) : List (List Interruption) → State → Option Stretch :=
  repeatUntil (fun v => decide (v = .accepted)) (.tgSubmit x)

/-- WAIT_IDLE: repeat TG_QUERY until it returns 0. -/
def waitIdle : List (List Interruption) → State → Option Stretch :=
  repeatUntil (fun v => decide (v = .bit false)) .tgQuery

/-- What follows a successful poll in PUMP_ITERATION: the draw, its end, the release. -/
def drawAndRelease (draw : List DrawStep) (between : List Interruption) : List Request :=
  draw.map DrawStep.request ++ .drawDone :: between.map Interruption.request ++ [.dpRelease]

/-- PUMP_ITERATION: repeat DP_POLL until it returns 1; then the draw, DRAW_DONE and DP_RELEASE. -/
def pumpIteration (waits : List (List Interruption)) (draw : List DrawStep) (between : List Interruption)
    (s : State) : Option Stretch :=
  (repeatUntil (fun v => decide (v = .bit true)) .dpPoll waits s).bind fun k =>
    (askAll (drawAndRelease draw between) k.final).map fun t =>
      ⟨k.asked ++ drawAndRelease draw between, t⟩

/-- Display's reads at given offsets. -/
def reads (offs : List Nat) : List DrawStep := offs.map .read

end Sys2Proof.Machine
end

