-- ==== Sys2Proof/Safety.lean ====
section
/-! DEFINITION. The terms claims are stated in: the block's own part of the state, what an operation leaves
alone, when it is enabled, the three transition tables of the spec, and the invariant of every run. -/

namespace Sys2Proof.Machine

/-- Any number of steps, one after the other (R153); it stops at the first stop. -/
def run (n : Nat) (s : State) : Result := Host.Core.run Sys2Proof.core n s

/-- The byte the storage holds at an offset; `none` where R34 leaves it unspecified, or outside the storage. -/
def byteAt (s : State) (a : Nat) : Option Byte := Memory.read s.storage a

/-- The seven elements of R32. -/
structure Block where
  storage : Memory
  cursor : Nat
  ready : Bool
  busy : Bool
  armed : Bool
  phase : Phase
  busActive : Bool
  deriving DecidableEq, Repr

/-- The block's part of the state. -/
def State.block (s : State) : Block :=
  { storage := s.storage, cursor := s.cursor, ready := s.ready, busy := s.busy, armed := s.armed,
    phase := s.phase, busActive := s.busActive }

/-- The gate's flags and the bus's level are the same. -/
def SameGate (s t : State) : Prop := t.busy = s.busy ∧ t.armed = s.armed ∧ t.busActive = s.busActive

/-- The frame buffer and the pump's phase are the same, every byte of the storage among them. -/
def SameFrame (s t : State) : Prop :=
  (∀ a, byteAt t a = byteAt s a) ∧ t.cursor = s.cursor ∧ t.ready = s.ready ∧ t.phase = s.phase

/-- Nothing was returned or put out; what Display keeps, in its draw and at all, the schedule and the parameters
are the same. -/
def SameOwn (s t : State) : Prop :=
  t.returned = s.returned ∧ t.emitted = s.emitted ∧ t.held = s.held ∧ t.drawHeld = s.drawHeld ∧
    t.inbox = s.inbox ∧ t.params = s.params

/-- The logical write offset of R87: where the next byte to be stored will be stored. -/
def logicalWriteOffset (s : State) : Nat := if s.ready then 0 else s.cursor

/-- The enabling condition of each operation, as R58, R77 and the operation rules give it. A read asks in
addition that the byte has a value (R34). -/
def Enabled (s : State) : Instr → Prop
  | .rxData b => s.ready = false ∧ s.cursor < s.capacity ∧ b ≠ s.params.sentinel
  | .rxSentinel b => s.ready = false ∧ s.cursor < s.capacity ∧ b = s.params.sentinel
  | .rxDrop _ => s.ready = true ∨ s.cursor = s.capacity
  | .rxNone => True
  | .dpPoll => s.phase = .poll
  | .fbRead off => s.phase = .draw ∧ s.ready = true ∧ off < s.capacity ∧ byteAt s off ≠ none
  | .drawDone => s.phase = .draw
  | .dpRelease => s.phase = .done
  | .tgSubmitAccepted _ => s.busy = false
  | .tgSubmitBlocked _ => s.busy = true
  | .tgQuery => True
  | .busComplete => s.busActive = true
  | .tgIrq => s.armed = true ∧ s.busActive = false
  | .reset => True

/-- An offset holds a data byte. -/
def HoldsData (s : State) (k : Nat) : Prop := ∃ b, byteAt s k = some b ∧ b ≠ s.params.sentinel

/-- What holds in every state of every run. -/
structure Inv (s : State) : Prop where
  /-- The configuration is one R8 admits. -/
  validParams : s.params.valid = true
  /-- The storage is in canonical form. -/
  storageWf : Memory.wf s.storage = true
  /-- No byte stands outside the storage (R16, R38). -/
  storageInRange : ∀ a, s.capacity ≤ a → byteAt s a = none
  /-- The cursor is legal (R15, R20). -/
  cursorLe : s.cursor ≤ s.capacity
  /-- INV1 of R20. -/
  readyCursor : s.ready = true → s.cursor = s.capacity
  /-- INV2 of R21. -/
  cursorReady : s.cursor = s.capacity → s.ready = true
  /-- What INV3 and INV4 of R21 say of the bytes below the cursor: each is data. -/
  frameData : ∀ k, k < s.cursor → HoldsData s k
  /-- The pump draws only a complete frame (R93). -/
  drawOwned : s.phase ≠ .poll → s.ready = true
  /-- The gate's invariant (R113). -/
  busBusy : s.busActive = true → s.busy = true
  /-- What Display keeps, it keeps once (R108 (a)). -/
  heldNodup : s.held.Nodup
  /-- So too of the present draw. -/
  drawHeldNodup : s.drawHeld.Nodup
  /-- What a draw has not seen accepted, Display keeps. -/
  drawHeldKept : ∀ x ∈ s.drawHeld, x ∈ s.held
  /-- Outside a draw nothing of a draw is outstanding: it ended with every submission accepted (R99). -/
  drawHeldInDraw : s.phase ≠ .draw → s.drawHeld = []

/-- The receiver's control states (R86). -/
inductive ReceiverState where
  | fill (k : Nat)
  | full
  deriving DecidableEq, Repr

/-- The control state of the receiver, where it is one of R86's. -/
def receiverState (s : State) : Option ReceiverState :=
  if s.ready = false ∧ s.cursor < s.capacity then some (.fill s.cursor)
  else if s.ready = true ∧ s.cursor = s.capacity then some .full
  else none

/-- What a row of R86's table does to the storage. -/
inductive StorageEffect where
  | none
  | store (off : Nat) (b : Byte)
  | unspecified
  deriving DecidableEq, Repr

/-- R86's table, for a given `CAPACITY`; an operation of another agent leaves the receiver alone. -/
def receiverTable (capacity : Nat) : Instr → ReceiverState → Option (ReceiverState × StorageEffect)
  | .rxData b, .fill k => some (if k + 1 < capacity then .fill (k + 1) else .full, .store k b)
  | .rxSentinel b, .fill k => some (.fill 0, .store k b)
  | .rxDrop _, .full => some (.full, .none)
  | .rxNone, r => some (r, .none)
  | .dpRelease, .full => some (.fill 0, .none)
  | .reset, _ => some (.fill 0, .unspecified)
  | .rxData _, .full => none
  | .rxSentinel _, .full => none
  | .rxDrop _, .fill _ => none
  | .dpRelease, .fill _ => none
  | .dpPoll, r => some (r, .none)
  | .fbRead _, r => some (r, .none)
  | .drawDone, r => some (r, .none)
  | .tgSubmitAccepted _, r => some (r, .none)
  | .tgSubmitBlocked _, r => some (r, .none)
  | .tgQuery, r => some (r, .none)
  | .busComplete, r => some (r, .none)
  | .tgIrq, r => some (r, .none)

/-- The bytes after an operation are those its row of R86 gives; for the RESET row's "unspecified" (R147, R34), that
no offset has a value, by log 4. -/
def StorageEffect.holds (s t : State) : StorageEffect → Prop
  | .none => ∀ a, byteAt t a = byteAt s a
  | .store off b => byteAt t off = some b ∧ ∀ a, a ≠ off → byteAt t a = byteAt s a
  | .unspecified => ∀ a, byteAt t a = Option.none

/-- R93's table: the phase after an operation, where R93 lists the operation from that phase and with that
`ready`. Whether "Display has finished" is not the block's to see: it is decided where Display's return is decoded. -/
def pumpTable (ready : Bool) : Instr → Phase → Option Phase
  | .dpPoll, .poll => some (if ready then .draw else .poll)
  | .dpPoll, .draw => none
  | .dpPoll, .done => none
  | .fbRead _, .draw => some .draw
  | .fbRead _, .poll => none
  | .fbRead _, .done => none
  | .drawDone, .draw => some .done
  | .drawDone, .poll => none
  | .drawDone, .done => none
  | .dpRelease, .done => some .poll
  | .dpRelease, .poll => none
  | .dpRelease, .draw => none
  | .reset, _ => some .poll
  | .tgSubmitAccepted _, ph => if ph = .draw then some .draw else none
  | .tgSubmitBlocked _, ph => if ph = .draw then some .draw else none
  | .tgQuery, ph => if ph = .draw then some .draw else none
  | .rxData _, _ => none
  | .rxSentinel _, _ => none
  | .rxDrop _, _ => none
  | .rxNone, _ => none
  | .busComplete, _ => none
  | .tgIrq, _ => none

/-- The gate's control state of R117: `(busy, armed, bus_active)`. -/
def gateState (s : State) : Bool × Bool × Bool := (s.busy, s.armed, s.busActive)

/-- R117's table; the operations it does not list leave the gate alone. -/
def gateTable : Instr → Bool × Bool × Bool → Option (Bool × Bool × Bool)
  | .tgSubmitAccepted _, (false, a, false) => some (true, a, true)
  | .tgSubmitAccepted _, (false, _, true) => none
  | .tgSubmitAccepted _, (true, _, _) => none
  | .tgSubmitBlocked _, (true, _, v) => some (true, true, v)
  | .tgSubmitBlocked _, (false, _, _) => none
  | .tgQuery, (b, _, v) => some (b, true, v)
  | .busComplete, (true, a, true) => some (true, a, false)
  | .busComplete, (true, _, false) => none
  | .busComplete, (false, _, _) => none
  | .tgIrq, (_, true, false) => some (false, false, false)
  | .tgIrq, (_, false, _) => none
  | .tgIrq, (_, true, true) => none
  | .reset, _ => some (false, false, false)
  | .rxData _, g => some g
  | .rxSentinel _, g => some g
  | .rxDrop _, g => some g
  | .rxNone, g => some g
  | .dpPoll, g => some g
  | .fbRead _, g => some g
  | .drawDone, g => some g
  | .dpRelease, g => some g

end Sys2Proof.Machine
end

