-- ==== Sys2Proof/Certificates/Slice0/Obligations.lean ====
section
/-! DEFINITION. The statements for the provers. Each follows a rule of spec/, which its docstring names; one
that rests on a choice of the model says which. -/

open Sys2Proof Sys2Proof.Machine

/-! ## The operations of the receiver -/

/-- R80: RX_DATA stores its byte at the cursor, advances by one and sets `ready` exactly at the last offset;
every other byte, flag and field is as before. -/
def Obligations.RxDataStoresAndAdvances : Prop :=
  ∀ (s : State) (b : Byte), s.ready = false → s.cursor < s.capacity → b ≠ s.params.sentinel →
    ∃ t, exec (.rxData b) s = .next t ∧
      byteAt t (storeOffset s) = some b ∧ (∀ a, a ≠ storeOffset s → byteAt t a = byteAt s a) ∧
      t.cursor = s.cursor + 1 ∧ t.ready = decide (s.cursor + 1 = s.capacity) ∧
      t.phase = s.phase ∧ SameGate s t ∧ SameOwn s t

/-- R82: RX_SENTINEL stores the sentinel at the cursor and takes the cursor to 0; `ready` stays 0; every other
byte, flag and field is as before. -/
def Obligations.RxSentinelRestartsFrame : Prop :=
  ∀ (s : State) (b : Byte), s.ready = false → s.cursor < s.capacity → b = s.params.sentinel →
    ∃ t, exec (.rxSentinel b) s = .next t ∧
      byteAt t (storeOffset s) = some s.params.sentinel ∧
      (∀ a, a ≠ storeOffset s → byteAt t a = byteAt s a) ∧
      t.cursor = 0 ∧ t.ready = false ∧ t.phase = s.phase ∧ SameGate s t ∧ SameOwn s t

/-- R83, which the spec derives from the step order of R75 and from R82: a sentinel in the last slot is stored
in bounds and completes no frame. -/
def Obligations.SentinelInLastSlotCompletesNoFrame : Prop :=
  ∀ s : State, s.ready = false → s.cursor + 1 = s.capacity →
    ∃ t, exec (.rxSentinel s.params.sentinel) s = .next t ∧
      byteAt t (s.capacity - 1) = some s.params.sentinel ∧ t.cursor = 0 ∧ t.ready = false

/-- R84: RX_DROP changes nothing, whatever the byte, the sentinel included. -/
def Obligations.RxDropChangesNothing : Prop :=
  ∀ (s : State) (b : Byte), s.ready = true ∨ s.cursor = s.capacity → exec (.rxDrop b) s = .next s

/-- R79: an activation without a byte changes nothing, in any state. -/
def Obligations.RxNoneChangesNothing : Prop := ∀ s : State, exec .rxNone s = .next s

/-- R77: which of the four outcomes an activation of the receiver has, whatever the flag and the cursor. The
cursor is a legal one (R15), which every run keeps (`StepKeepsInvariant`). -/
def Obligations.DeliveredByteDispatch : Prop :=
  ∀ (s : State) (rest : List Request), s.params.valid = true → s.cursor ≤ s.capacity →
    (s.inbox = .rx [] :: rest → step s = exec .rxNone (s.setInbox rest)) ∧
    (∀ b, s.inbox = .rx [b] :: rest →
      step s =
        if s.ready = true ∨ s.cursor = s.capacity then exec (.rxDrop b) (s.setInbox rest)
        else if b = s.params.sentinel then exec (.rxSentinel b) (s.setInbox rest)
        else exec (.rxData b) (s.setInbox rest))

/-- R85, and R67, which the spec derives from R57 and R58: every delivered byte, and every activation without
one, completes in one step from every state of an admitted configuration. That R85 speaks of activations is the
model's reading (log 7). -/
def Obligations.EveryDeliveredByteCompletes : Prop :=
  ∀ (s : State) (bytes : List Byte) (rest : List Request), s.params.valid = true → bytes.length ≤ 1 →
    s.inbox = .rx bytes :: rest → ∃ t, step s = .next t ∧ t.inbox = rest

/-- R78, which the spec derives from R77 and R15: below `CAPACITY` the cursor advances by one, within the
cursor's bits, and does not wrap; R8, derived there too: `CURSOR_W` is the least width that holds `CAPACITY`. -/
def Obligations.CursorNeverWraps : Prop :=
  ∀ (p : Params) (k : Nat), k < p.capacity →
    advance p k = k + 1 ∧ k + 1 ≤ p.capacity ∧ p.capacity < 2 ^ p.cursorW ∧
      ∀ n, p.capacity < 2 ^ n → p.cursorW ≤ n

/-! ## The operations of the hand-off -/

/-- R94: a poll returns `ready`; on 1 the pump enters DRAW and DRAW_START carries the storage, the origin and
the display size; outside phase POLL it has no step. -/
def Obligations.DpPollReturnsReadiness : Prop :=
  ∀ s : State,
    (s.phase = .poll → s.ready = false →
      exec .dpPoll s = .next { s with returned := some (.bit false) }) ∧
    (s.phase = .poll → s.ready = true →
      exec .dpPoll s = .next { s with
        phase := .draw
        emitted := s.emitted ++ [.drawStart s.storage 0 0 s.params.width s.params.height]
        returned := some (.bit true) }) ∧
    (s.phase ≠ .poll → exec .dpPoll s = .refused .pumpNotPolling)

/-- R97: a read in a draw of an owned buffer, in range, returns the stored byte and changes nothing else; any
other read is refused. The byte has a value: R34 leaves one that nothing has written unspecified, and the model
refuses it (log 4). -/
def Obligations.FbReadReturnsStoredByte : Prop :=
  ∀ (s : State) (off : Nat),
    (∀ v, s.phase = .draw → s.ready = true → off < s.capacity → byteAt s off = some v →
      exec (.fbRead off) s = .next { s with returned := some (.byte v) }) ∧
    (s.phase ≠ .draw ∨ s.ready = false ∨ s.capacity ≤ off ∨ byteAt s off = none →
      ∃ r, exec (.fbRead off) s = .refused r)

/-- R48, R21 (INV4), which the spec derives from R80, R82, R84 and R98: in a state of a run, every in-range read
of a draw completes, and returns a data byte. -/
def Obligations.FbReadCompletesDuringDraw : Prop :=
  ∀ (s : State) (off : Nat), Inv s → s.phase = .draw → off < s.capacity →
    ∃ v, v ≠ s.params.sentinel ∧ byteAt s off = some v ∧
      exec (.fbRead off) s = .next { s with returned := some (.byte v) }

/-- R99: Display's return takes the pump from DRAW to DONE, whatever the gate holds; outside DRAW it has no step.
Display does not return before every TG_SUBMIT of this draw has been accepted (R99, R115): a step refuses such a
return, and no other in DRAW, whatever stalled outside the draw (log 8). -/
def Obligations.DrawDoneEndsDraw : Prop :=
  ∀ s : State,
    (s.phase = .draw → exec .drawDone s = .next { s with phase := .done }) ∧
    (s.phase ≠ .draw → exec .drawDone s = .refused .pumpNotDrawing) ∧
    (∀ rest, s.params.valid = true → s.inbox = .drawDone :: rest →
      step s = if s.drawHeld = [] then exec .drawDone (s.setInbox rest) else .refused .displayStalled)

/-- R98: the release writes cursor, `ready` and phase in one step and leaves every byte; outside DONE it has
no step. -/
def Obligations.DpReleaseReturnsBuffer : Prop :=
  ∀ s : State,
    (s.phase = .done →
      exec .dpRelease s = .next { s with cursor := 0, ready := false, phase := .poll }) ∧
    (s.phase ≠ .done → exec .dpRelease s = .refused .drawNotDone)

/-! ## The operations of the gate -/

/-- R107: an idle gate accepts: `busy` and the bus's level rise together, BUS_START carries the payload, the
arming is not changed. What Display then keeps, `StalledPayloadsAreKept` says. -/
def Obligations.TgSubmitAcceptedStartsTransfer : Prop :=
  ∀ (s : State) (x : Payload), s.busy = false →
    ∃ l, exec (.tgSubmitAccepted x) s = .next { s with
      busy := true, busActive := true, emitted := s.emitted ++ [.busStart x], returned := some .accepted
      held := l }

/-- R108's flags: a busy gate arms and stalls: `armed` is set, `busy` stays, nothing is put out, and nothing else of
the block changes. That Display keeps the payload is the other part of the rule: this statement leaves open what
is held after it, and `StalledPayloadsAreKept` says it, by log 20. -/
def Obligations.TgSubmitBlockedArmsAndStalls : Prop :=
  ∀ (s : State) (x : Payload), s.busy = true →
    ∃ l, exec (.tgSubmitBlocked x) s = .next { s with armed := true, returned := some .stalled, held := l }

/-- R109: a query returns the flag as it was and arms, in any state. -/
def Obligations.TgQueryReturnsAndArms : Prop :=
  ∀ s : State, exec .tgQuery s = .next { s with armed := true, returned := some (.bit s.busy) }

/-- R110: a completion lowers the bus's level alone; with nothing outstanding it has no step. -/
def Obligations.BusCompleteLowersLevel : Prop :=
  ∀ s : State,
    (s.busActive = true → exec .busComplete s = .next { s with busActive := false }) ∧
    (s.busActive = false → exec .busComplete s = .refused .noTransferOutstanding)

/-- R111: the completion interrupt clears `busy` and uses the arming up; it is enabled exactly while armed
with no transfer outstanding. -/
def Obligations.TgIrqClearsBusyAndArmed : Prop :=
  ∀ s : State,
    (s.armed = true → s.busActive = false →
      exec .tgIrq s = .next { s with busy := false, armed := false }) ∧
    (s.armed = false ∨ s.busActive = true → exec .tgIrq s = .refused .completionNotPending)

/-- R109 (c), and R44, which the spec derives from R41, R42 and R109: querying twice is querying once, and a read
repeated is the same read. -/
def Obligations.QueryAndReadAreIdempotent : Prop :=
  (∀ s t u : State, exec .tgQuery s = .next t → exec .tgQuery t = .next u → u = t) ∧
  (∀ (s t : State) (off : Nat), exec (.fbRead off) s = .next t → exec (.fbRead off) t = .next t)

/-! ## Reset -/

/-- R147: power-up, from any state, takes every element of the block to its reset value, which is the launch
state's, leaves no byte of the storage a value (log 4), changes no parameter and leaves Display nothing to
submit and in no draw (log 13). -/
def Obligations.ResetOperationClearsBlock : Prop :=
  ∀ s : State, ∃ t, exec .reset s = .next t ∧ t.cursor = 0 ∧ t.ready = false ∧ (∀ a, byteAt t a = none) ∧
    t.busy = false ∧ t.armed = false ∧ t.phase = .poll ∧ t.busActive = false ∧ t.params = s.params ∧
    t.held = [] ∧ t.drawHeld = [] ∧ t.block = State.reset.block

/-- R34: the state after power-up, and that a read of a byte nothing has written since is refused. That such a byte
is one without a value is the model's reading of "unspecified" (log 4). -/
def Obligations.ResetStateValues : Prop :=
  State.reset.cursor = 0 ∧ State.reset.ready = false ∧ State.reset.busy = false ∧
    State.reset.armed = false ∧ State.reset.phase = .poll ∧ State.reset.busActive = false ∧
    (∀ a, byteAt State.reset a = none) ∧
    ∀ (s : State) (off : Nat), byteAt s off = none → ∃ r, exec (.fbRead off) s = .refused r

/-- R152, which the spec derives from R80 and R82: after reset the first byte is accepted at offset 0, with no
sentinel before it. -/
def Obligations.FirstByteAfterResetIsAccepted : Prop :=
  ∀ b : Byte, b ≠ 0xFF → ∃ t, step (State.reset.setInbox [.rx [b]]) = .next t ∧
    byteAt t 0 = some b ∧ t.cursor = 1 ∧ t.ready = false

/-! ## Decoding -/

/-- R65, which the spec derives by enumeration: every byte matches exactly one row of the wire map, the rows'
sizes are the spec's, each row gives the byte's class; for any sentinel the class is equality with it (R57); a
closed buffer drops every byte. -/
def Obligations.WireMapPartitionsBytes : Prop :=
  (∀ b : Byte, (wireTable.filter (rowMatches b)).length = 1) ∧
  (wireTable.map fun r => ((List.range 256).filter fun n => rowMatches (BitVec.ofNat 8 n) r).length)
    = [128, 64, 32, 16, 8, 4, 2, 1, 1] ∧
  (∀ b : Byte, ∀ r ∈ wireTable, rowMatches b r = true → r.cls = classify Params.default b) ∧
  (∀ (p : Params) (b : Byte), classify p b = .sentinel ↔ b = p.sentinel) ∧
  (∀ (p : Params) (b : Byte), decodeByte p true b = .rxDrop b)

/-- Words written from the spec's wire map (V-E1, V-E3, V-E15, V-E16 of spec/95_test_vectors.md) decode to the
operations they stand for. That a table word is read with the buffer open, as after reset, is the model's choice
(log 6). What never happens is refused, as the model chooses to (R11, R123): more than one byte in an activation
(log 19), and Display's return before every TG_SUBMIT of the draw is accepted (log 8). -/
def Obligations.DecodedWords : Prop :=
  decodeTableWord 8 0b00000000 = some (.rxData 0x00) ∧ decodeTableWord 8 0b10000000 = some (.rxData 0x80) ∧
  decodeTableWord 8 0b11111110 = some (.rxData 0xFE) ∧ decodeTableWord 8 0b11111111 = some (.rxSentinel 0xFF) ∧
  ∀ (p : Params) (sel : Selection) (r : Request),
    (∃ e, decode p sel r = .error e) ↔
      (∃ b c rest, r = .rx (b :: c :: rest)) ∨ (r = .drawDone ∧ sel.stalled = true)

/-- R58, R65, R77: every well-formed operation is read back from the request that carries it, in every state
that selects it, each operand at every value. That DRAW_DONE is selected only where every TG_SUBMIT of the draw has
been accepted is no column of R58: it is the model's reading of R99 (log 8, DEDUCED). -/
def Obligations.DecodeOfEncode : Prop :=
  ∀ (p : Params) (sel : Selection) (i : Instr), i.wf p = true → i.selectedBy sel = true →
    decode p sel (encode i) = .ok i

/-- R58, R77: a request has one operation in a state, the one the state selects; no bit of the request is lost. For
DRAW_DONE "selects" says that every TG_SUBMIT of the draw has been accepted, which is no column of R58: it is the
model's reading of R99 (log 8, DEDUCED). A payload too wide for a given `WORD_W` decodes and is not well-formed
(R105; log 11). -/
def Obligations.EncodeOfDecode : Prop :=
  ∀ (p : Params) (sel : Selection) (r : Request) (i : Instr), decode p sel r = .ok i →
    encode i = r ∧ i.selectedBy sel = true ∧ (i.wf p = true ∨ ∃ x, r = .tgSubmit x ∧ p.fitsWord x = false)

/-! ## The step -/

/-- A step runs the operation that the next request decodes to, and the request leaves the schedule (R47). Around
it the step does one thing: Display notes which submissions of its draw are not accepted (`DrawSubmissionsAreNoted`
says how), which no operation reads. That the schedule is a list in the state, and the note a field of it, is the
model's choice (logs 2 and 22). -/
def Obligations.StepRunsDecodedRequest : Prop :=
  ∀ (s : State) (r : Request) (rest : List Request) (i : Instr), s.params.valid = true →
    s.inbox = r :: rest → decode s.params (selection s) r = .ok i → i.wf s.params = true →
    step s = exec i (noteDraw i (s.setInbox rest)) ∧
      ∃ l, noteDraw i (s.setInbox rest) = { s with inbox := rest, drawHeld := l }

/-- With nothing asked a step changes nothing, and an inadmissible configuration is refused (R8). The first is
the model's choice (log 2). -/
def Obligations.StepIdlesOrRefusesConfiguration : Prop :=
  (∀ s : State, s.params.valid = true → s.inbox = [] → step s = .next s) ∧
  (∀ s : State, s.params.valid = false → step s = .refused .badConfiguration) ∧
  (∀ p : Params, p.valid = true ↔ 0 < p.width ∧ 0 < p.height ∧ 0 < p.bpp ∧
    8 ∣ p.width * p.height * p.bpp ∧ p.wordW ≠ some 0)

/-- R118, R38: no step of any state faults, so no operation reaches an offset that does not exist. -/
def Obligations.NoStepFaults : Prop := ∀ (s : State) (f : Fault), step s ≠ .fault f

/-- R58, and R123, which the spec derives from R11: an operation has a step exactly where its rule enables it,
and the model refuses it elsewhere (log 7). A read asks in addition that its byte has a value (R34, log 4). A
byte-carrying operation of the receiver is asked of a legal cursor (R15), which every run keeps
(`StepKeepsInvariant`). -/
def Obligations.StepsExactlyWhenEnabled : Prop :=
  ∀ (s : State) (i : Instr), s.cursor ≤ s.capacity →
    (Enabled s i → ∃ t, exec i s = .next t) ∧ (¬ Enabled s i → ∃ r, exec i s = .refused r)

/-- R18, R19: no step changes a parameter, and `CAPACITY` is the geometry's byte count, 6144 by default (R63). The
default `CURSOR_W` is the 13 of R15; R8 marks it as derived in the spec. -/
def Obligations.ParametersNeverChange : Prop :=
  (∀ s t : State, step s = .next t → t.params = s.params) ∧
  (∀ p : Params, p.valid = true → p.capacity * 8 = p.width * p.height * p.bpp ∧ 0 < p.capacity) ∧
  Params.default.capacity = 6144 ∧ Params.default.cursorW = 13

/-! ## Who writes what -/

/-- R41: only the receiver writes the storage, only while `ready = 0`, one byte, at the cursor, in range.
Power-up, which leaves the storage unspecified, is not a write (R147). -/
def Obligations.StorageWrittenOnlyByReceiver : Prop :=
  ∀ (s t : State) (i : Instr), exec i s = .next t → t.storage ≠ s.storage → i ≠ .reset →
    s.ready = false ∧ storeOffset s < s.capacity ∧
      ∃ b, (i = .rxData b ∨ i = .rxSentinel b) ∧ byteAt t (storeOffset s) = some b ∧
        ∀ a, a ≠ storeOffset s → byteAt t a = byteAt s a

/-- R15, and R30, which the spec derives from it: the cursor advances by one on RX_DATA, goes to 0 on
RX_SENTINEL, DP_RELEASE and RESET, and stays on every other operation. -/
def Obligations.CursorWrittenOnlyAsListed : Prop :=
  ∀ (s t : State) (i : Instr), exec i s = .next t →
    ((∃ b, i = .rxData b) → t.cursor = s.cursor + 1) ∧
    (((∃ b, i = .rxSentinel b) ∨ i = .dpRelease ∨ i = .reset) → t.cursor = 0) ∧
    ((∀ b, i ≠ .rxData b) → (∀ b, i ≠ .rxSentinel b) → i ≠ .dpRelease → i ≠ .reset → t.cursor = s.cursor)

/-- R17, and R81, which the spec derives from R80 and R21: `ready` rises only by an RX_DATA that fills the last
offset, and falls only by the release or power-up. -/
def Obligations.ReadyWrittenOnlyAsListed : Prop :=
  ∀ (s t : State) (i : Instr), exec i s = .next t →
    (s.ready = false → t.ready = true →
      ∃ b, i = .rxData b ∧ storeOffset s + 1 = s.capacity ∧ byteAt t (storeOffset s) = some b) ∧
    (s.ready = true → t.ready = false → i = .dpRelease ∨ i = .reset)

/-- R23, R24, R28, R31: which operations raise and lower the gate's flags and the bus's level. -/
def Obligations.GateFlagsWrittenOnlyAsListed : Prop :=
  ∀ (s t : State) (i : Instr), exec i s = .next t →
    (s.busy = false → t.busy = true → ∃ x, i = .tgSubmitAccepted x) ∧
    (s.busy = true → t.busy = false → i = .tgIrq ∨ i = .reset) ∧
    (s.armed = false → t.armed = true → i = .tgQuery ∨ ∃ x, i = .tgSubmitBlocked x) ∧
    (s.armed = true → t.armed = false → i = .tgIrq ∨ i = .reset) ∧
    (s.busActive = false → t.busActive = true → ∃ x, i = .tgSubmitAccepted x) ∧
    (s.busActive = true → t.busActive = false → i = .busComplete ∨ i = .reset)

/-- R135: what each context may write: the interrupt context never the phase, and only sets `ready` and only
clears the gate's flags; the main loop never the storage, the cursor only to 0 at the release, and only clears
`ready` and only sets the gate's flags. -/
def Obligations.ContextsKeepToTheirFields : Prop :=
  ∀ (s t : State) (i : Instr), exec i s = .next t →
    (i.context = .interrupt →
      t.phase = s.phase ∧ (s.ready = true → t.ready = true ∧ t.cursor = s.cursor ∧ t.storage = s.storage) ∧
      (t.busy = true → s.busy = true) ∧ (t.armed = true → s.armed = true)) ∧
    (i.context = .mainLoop →
      t.storage = s.storage ∧ (t.cursor ≠ s.cursor → i = .dpRelease ∧ t.cursor = 0) ∧
      (t.ready ≠ s.ready → i = .dpRelease ∧ t.ready = false) ∧
      (s.busy = true → t.busy = true) ∧ (s.armed = true → t.armed = true))

/-- R128, which the spec derives from R127 and R43: an activation of the interrupt context leaves the
interrupted agent alone: its phase and whatever was returned to it; and it puts nothing out. -/
def Obligations.ActivationLeavesInterruptedAgentAlone : Prop :=
  ∀ (s t : State) (i : Instr), i.context = .interrupt → exec i s = .next t → t.phase = s.phase ∧ SameOwn s t

/-! ## The three transition tables -/

/-- R86, which the spec derives from R77 to R84: the receiver's control state and the storage move as the table
gives. In the RESET row the table's effect on the storage is "unspecified" (R147, R34); the statement says of it
that no offset reads as a value afterwards, which is the model's reading (log 4, DEDUCED) and not R86's word. -/
def Obligations.ReceiverFollowsItsTable : Prop :=
  ∀ (s t : State) (i : Instr), Inv s → exec i s = .next t →
    ∃ r r' e, receiverState s = some r ∧ receiverTable s.capacity i r = some (r', e) ∧
      receiverState t = some r' ∧ StorageEffect.holds s t e

/-- R93, which the spec derives from R94, R98, R99 and R84: the pump's phase moves as the table gives; the
operations whose rules ask for a phase are refused where the table gives them no move; and every other operation
leaves the phase alone where the table does not list it. Among the last are TG_SUBMIT and TG_QUERY outside a draw,
which R93 does not list and the model allows (log 9). -/
def Obligations.PumpFollowsItsTable : Prop :=
  ∀ (s : State) (i : Instr),
    (∀ ph, pumpTable s.ready i s.phase = some ph → ∀ t, exec i s = .next t → t.phase = ph) ∧
    (pumpTable s.ready i s.phase = none →
      (i.asksPhase = true → ∃ r, exec i s = .refused r) ∧
      (i.asksPhase = false → ∀ t, exec i s = .next t → t.phase = s.phase))

/-- R117, which the spec derives from R107 to R111: the gate's control state moves as the table gives, and a
gate operation has a step exactly where the table gives it a move. The gate is in one of the table's six states
(R113). -/
def Obligations.GateFollowsItsTable : Prop :=
  ∀ (s : State) (i : Instr), (s.busActive = true → s.busy = true) →
    (∀ t, exec i s = .next t → gateTable i (gateState s) = some (gateState t)) ∧
    (i.isGateOp = true → ∀ g, gateTable i (gateState s) = some g →
      ∃ t, exec i s = .next t ∧ gateState t = g)

/-! ## Invariants -/

/-- R20, and R21, R93 and R113, which the spec derives by induction over the operations: every step, from every
state that meets the invariant, meets it again. -/
def Obligations.StepKeepsInvariant : Prop := ∀ s t : State, Inv s → step s = .next t → Inv t

/-- R34, R20, and R21, whose base case the spec puts here: the state after power-up meets the invariant. -/
def Obligations.ResetMeetsInvariant : Prop := Inv State.reset

/-- R113, which the spec derives from R107, R110 and R111: `bus_active` implies `busy`; a transfer starts only
while none is outstanding; and a completed transfer that nobody has observed leaves `busy` set. -/
def Obligations.GateInvariantAndOneTransfer : Prop :=
  ∀ s : State, (s.busActive = true → s.busy = true) →
    (∀ t, step s = .next t →
      (t.busActive = true → t.busy = true) ∧
      ∀ x, t.emitted = s.emitted ++ [.busStart x] → s.busActive = false ∧ t.busActive = true) ∧
    (s.busActive = true → ∃ u, exec .busComplete s = .next u ∧ u.busy = true ∧ u.busActive = false)

/-! ## Runs -/

/-- R38; and that feeding completes, which is R85 in the reading of log 7, for a cursor past `CAPACITY` by log
5: no stream of bytes, of any length, from any state, writes outside the storage, and no read outside it is
answered. -/
def Obligations.NoByteStreamWritesOutOfRange : Prop :=
  (∀ (s : State) (bytes : List Byte) (rest : List Request), s.params.valid = true →
    s.inbox = feed bytes ++ rest →
    ∃ t, run bytes.length s = .next t ∧ t.inbox = rest ∧
      ∀ a, s.capacity ≤ a → byteAt t a = byteAt s a) ∧
  (∀ (s : State) (a : Nat), s.capacity ≤ a → ∃ r, exec (.fbRead a) s = .refused r)

/-- R39, and R62, which the spec derives from R21 (INV3): data bytes fed from an empty buffer stand at ascending
offsets in arrival order, and the cursor counts them. -/
def Obligations.DataBytesAreStoredInArrivalOrder : Prop :=
  ∀ (s : State) (bytes : List Byte) (rest : List Request), s.params.valid = true → s.ready = false →
    s.cursor = 0 → bytes.length ≤ s.capacity → (∀ b ∈ bytes, b ≠ s.params.sentinel) →
    s.inbox = feed bytes ++ rest →
    ∃ t, run bytes.length s = .next t ∧ t.inbox = rest ∧
      t.cursor = bytes.length ∧ t.ready = decide (bytes.length = s.capacity) ∧
      ∀ k, k < bytes.length → byteAt t k = bytes[k]?

/-- R88, which the spec derives from R80, R82 and R84: from an open buffer, a sentinel and `CAPACITY` data bytes
complete a frame, exactly at the last byte, and the storage holds the bytes in order; from a buffer the consumer
owns, all of them are dropped. A full cursor with `ready = 0`, which no run reaches (INV2), is left out. -/
def Obligations.SentinelThenFrameCompletes : Prop :=
  ∀ (s : State) (frame : List Byte) (rest : List Request), s.params.valid = true →
    frame.length = s.capacity → (∀ b ∈ frame, b ≠ s.params.sentinel) →
    s.inbox = feed (s.params.sentinel :: frame) ++ rest →
    (s.ready = false → s.cursor < s.capacity →
      (∃ t, run (s.capacity + 1) s = .next t ∧ t.inbox = rest ∧
        t.ready = true ∧ t.cursor = s.capacity ∧ ∀ k, k < s.capacity → byteAt t k = frame[k]?) ∧
      ∀ n, n ≤ s.capacity → ∃ u, run n s = .next u ∧ u.ready = false) ∧
    (s.ready = true → run (s.capacity + 1) s = .next (s.setInbox rest))

/-- E6 (the source's scenario 2; R82, R88): a frame cut short by a sentinel leaves nothing in the frame that
follows. -/
def Obligations.ResyncDiscardsPartialFrame : Prop :=
  ∀ (s : State) (part frame : List Byte) (rest : List Request), s.params.valid = true → s.ready = false →
    s.cursor < s.capacity → part.length < s.capacity → frame.length = s.capacity →
    (∀ b ∈ part ++ frame, b ≠ s.params.sentinel) →
    s.inbox = feed (s.params.sentinel :: (part ++ s.params.sentinel :: frame)) ++ rest →
    ∃ t, run (part.length + s.capacity + 2) s = .next t ∧ t.inbox = rest ∧
      t.ready = true ∧ ∀ k, k < s.capacity → byteAt t k = frame[k]?

/-- R87, which the spec derives from R82, R84 and R98: after a sentinel the logical write offset is 0, in every
state where a full cursor means `ready` (INV2 of R21, which every run keeps: `StepKeepsInvariant`). -/
def Obligations.SentinelResetsLogicalWriteOffset : Prop :=
  ∀ (s : State) (rest : List Request), s.params.valid = true → s.cursor ≤ s.capacity →
    (s.cursor = s.capacity → s.ready = true) → s.inbox = .rx [s.params.sentinel] :: rest →
    ∃ t, step s = .next t ∧ logicalWriteOffset t = 0 ∧
      (s.ready = false → t.cursor = 0 ∧ t.ready = false) ∧
      (s.ready = true → t.cursor = s.cursor ∧ t.ready = true)

/-- R84, and R103, which the spec derives from it: every byte delivered while the consumer owns the buffer is
lost and leaves no trace. -/
def Obligations.BytesAreDroppedWhileConsumerOwns : Prop :=
  ∀ (s : State) (bytes : List Byte) (rest : List Request), s.params.valid = true → s.ready = true →
    s.inbox = feed bytes ++ rest →
    run bytes.length s = .next (s.setInbox rest)

/-- R102, which the spec derives from R77, R80, R82, R84 and R97: a read is answered only while `ready = 1`, the
storage is written only while `ready = 0`, and so until the release, whatever the agents do, every read is
answered from the one frame. -/
def Obligations.NoTearingUntilRelease : Prop :=
  (∀ (s t : State) (off : Nat), exec (.fbRead off) s = .next t → s.ready = true) ∧
  (∀ (s t : State) (i : Instr), exec i s = .next t → t.storage ≠ s.storage → i ≠ .reset → s.ready = false) ∧
  (∀ (n : Nat) (s t : State), s.ready = true →
    (∀ r ∈ s.inbox.take n, r ≠ .dpRelease ∧ r ≠ .powerUp) →
    run n s = .next t →
    t.ready = true ∧ t.storage = s.storage ∧
      ∀ (off : Nat) (u : State), exec (.fbRead off) t = .next u →
        ∃ v, u.returned = some (.byte v) ∧ byteAt s off = some v)

/-- E5 (the source's scenario 1; R88, R93, R97, R98): from an open buffer with the pump polling, whatever
Display may have stalled outside the draw, a sentinel and a frame, a poll, any in-range reads, the end of the draw and the release all complete;
the frame is handed to Display whole, and the buffer is the receiver's again. -/
def Obligations.FrameIsReceivedDrawnAndReleased : Prop :=
  ∀ (s : State) (frame : List Byte) (offs : List Nat) (rest : List Request), s.params.valid = true →
    s.ready = false → s.cursor < s.capacity → s.phase = .poll → frame.length = s.capacity →
    (∀ b ∈ frame, b ≠ s.params.sentinel) → (∀ off ∈ offs, off < s.capacity) →
    s.inbox = feed (s.params.sentinel :: frame) ++ .dpPoll :: drawAndRelease (reads offs) [] ++ rest →
    ∃ t m, run (s.capacity + offs.length + 4) s = .next t ∧ t.inbox = rest ∧
      t.ready = false ∧ t.cursor = 0 ∧ t.phase = .poll ∧
      t.emitted = s.emitted ++ [.drawStart m 0 0 s.params.width s.params.height] ∧
      (∀ k, k < s.capacity → Memory.read m k = frame[k]? ∧ byteAt t k = frame[k]?) ∧ SameGate s t

/-- R114, which the spec derives from R107 to R111: a submission that finds the gate Busy stalls, and after the
completion and its interrupt the same payload is accepted and put out, once; SUBMIT_BLOCKING (R71), with the
completion and its interrupt after its first attempt, is just these four requests. -/
def Obligations.BlockedSubmitProceedsAfterCompletion : Prop :=
  ∀ (s : State) (x : Payload), s.busy = true → s.busActive = true →
    ∃ a b c d, exec (.tgSubmitBlocked x) s = .next a ∧ exec .busComplete a = .next b ∧
      exec .tgIrq b = .next c ∧ exec (.tgSubmitAccepted x) c = .next d ∧
      c.emitted = s.emitted ∧ c.busy = false ∧ d.emitted = s.emitted ++ [.busStart x] ∧
      gateState d = (true, false, true) ∧
    (s.params.valid = true → s.params.fitsWord x = true →
      ∃ k, submitBlocking x [[.busComplete, .tgIrq]] s = some k ∧
        k.asked = [.tgSubmit x, .busComplete, .tgIrq, .tgSubmit x] ∧ k.final.emitted = s.emitted ++ [.busStart x])

/-- R112: after an accepted submission one query is enough, made before or after the bus finishes: the
completion interrupt then clears `busy`. -/
def Obligations.OneArmingPerTransferIsEnough : Prop :=
  ∀ (s t : State) (x : Payload), exec (.tgSubmitAccepted x) s = .next t →
    (∃ a b c, exec .tgQuery t = .next a ∧ exec .busComplete a = .next b ∧ exec .tgIrq b = .next c ∧
      gateState c = (false, false, false)) ∧
    (∃ a b c, exec .busComplete t = .next a ∧ exec .tgQuery a = .next b ∧ exec .tgIrq b = .next c ∧
      gateState c = (false, false, false))

/-- R112, R156: a Busy gate that nobody arms stays Busy, whatever else happens. -/
def Obligations.UnarmedGateStaysBusy : Prop :=
  ∀ (n : Nat) (s t : State), s.busy = true → s.armed = false →
    (∀ r ∈ s.inbox.take n, r ≠ .tgQuery ∧ r ≠ .powerUp ∧ ∀ x, r ≠ .tgSubmit x) →
    run n s = .next t → t.busy = true ∧ t.armed = false

/-- R115, R121: while the bus never completes, the gate stays Busy and every submission stalls, whatever else
happens. Display keeps what has stalled, so a draw with a submission of its own stalled never ends (R99; P6 of
spec/95_test_vectors.md): the phase stays DRAW, `ready` 1 and the frame as it is. SUBMIT_BLOCKING never ends. -/
def Obligations.StalledBusHoldsGateBusy : Prop :=
  ∀ s : State, s.busy = true → s.busActive = true →
    (∀ (n : Nat) (t : State), (∀ r ∈ s.inbox.take n, r ≠ .busComplete ∧ r ≠ .powerUp) → run n s = .next t →
      t.busy = true ∧ t.busActive = true ∧ (∀ x ∈ s.held, x ∈ t.held) ∧
      (s.drawHeld ≠ [] → s.phase = .draw → s.ready = true →
        t.phase = .draw ∧ t.ready = true ∧ t.cursor = s.cursor ∧ t.storage = s.storage ∧
          ∀ x ∈ s.drawHeld, x ∈ t.drawHeld) ∧
      ∀ (x : Payload) (rest : List Request), t.params.valid = true →
        t.params.fitsWord x = true → t.inbox = .tgSubmit x :: rest →
        ∃ u, step t = .next u ∧ u.returned = some .stalled ∧ u.emitted = t.emitted ∧ u.busy = true ∧
          x ∈ u.held ∧ (t.phase = .draw → x ∈ u.drawHeld)) ∧
    ∀ (x : Payload) (waits : List (List Interruption)), (∀ w ∈ waits, .busComplete ∉ w) →
      submitBlocking x waits s = none

/-! ## Interleaving -/

/-- R132, which the spec derives from R32: a FrameBuffer operation and a gate operation share no field of the
block, so they commute: in the other order both still have their step, the block ends the same, and each returns
what it returned. -/
def Obligations.FrameAndGateOperationsCommute : Prop :=
  (∀ (s t : State) (i : Instr), exec i s = .next t →
    (i.isFrameOp = true → SameGate s t ∧ t.held = s.held ∧ t.drawHeld = s.drawHeld) ∧ (i.isGateOp = true → SameFrame s t ∧ t.drawHeld = s.drawHeld)) ∧
  (∀ (s t u : State) (i j : Instr),
    (i.isFrameOp = true ∧ j.isGateOp = true) ∨ (i.isGateOp = true ∧ j.isFrameOp = true) →
    exec i s = .next t → exec j t = .next u →
    ∃ t' u', exec j s = .next t' ∧ exec i t' = .next u' ∧ u'.block = u.block ∧ u'.held = u.held ∧
      (i.returns = true → u'.returned = t.returned) ∧ (j.returns = true → u.returned = t'.returned) ∧
      u'.emitted.Perm u.emitted)

/-- R133, which the spec derives from the operation rules: where the order of two operations does matter, and
what each order gives. The release meets a byte that is not the sentinel, in a buffer the consumer owns. -/
def Obligations.OrderMattersWhereListed : Prop :=
  (∀ (s : State) (b : Byte), s.phase = .done → s.ready = true → 0 < s.capacity → b ≠ s.params.sentinel →
    (∃ t u, exec (.rxDrop b) s = .next t ∧ exec .dpRelease t = .next u ∧
      u.cursor = 0 ∧ ∀ a, byteAt u a = byteAt s a) ∧
    (∃ t u, exec .dpRelease s = .next t ∧ exec (.rxData b) t = .next u ∧
      u.cursor = 1 ∧ byteAt u 0 = some b)) ∧
  (∀ (s : State) (b : Byte), s.phase = .poll → s.ready = false → s.cursor + 1 = s.capacity →
    b ≠ s.params.sentinel →
    (∃ t u, exec (.rxData b) s = .next t ∧ exec .dpPoll t = .next u ∧ u.returned = some (.bit true)) ∧
    (∃ t u, exec .dpPoll s = .next t ∧ exec (.rxData b) t = .next u ∧ u.returned = some (.bit false) ∧
      u.ready = true)) ∧
  (∀ s : State, s.busy = true → s.armed = true → s.busActive = false →
    (∃ t u, exec .tgQuery s = .next t ∧ exec .tgIrq t = .next u ∧ t.returned = some (.bit true) ∧
      gateState u = (false, false, false)) ∧
    (∃ t u, exec .tgIrq s = .next t ∧ exec .tgQuery t = .next u ∧ u.returned = some (.bit false) ∧
      gateState u = (false, true, false))) ∧
  (∀ s : State, s.armed = true → s.busActive = true →
    exec .tgIrq s = .refused .completionNotPending ∧
    ∃ t u, exec .busComplete s = .next t ∧ exec .tgIrq t = .next u)

/-! ## Display's stalled submissions, and the pseudo-operations -/

/-- What Display keeps: a payload that stalls stays with its requester (R108) until it is accepted (R107), once;
power-up forgets it (R146); no other operation touches it. That State records it is the model's choice (log 20).
The record holds no payload twice, which every run keeps (`StepKeepsInvariant`). -/
def Obligations.StalledPayloadsAreKept : Prop :=
  ∀ (s t : State) (i : Instr), s.held.Nodup → exec i s = .next t →
    (∀ x, i = .tgSubmitBlocked x → ∀ y, y ∈ t.held ↔ y = x ∨ y ∈ s.held) ∧
    (∀ x, i = .tgSubmitAccepted x → ∀ y, y ∈ t.held ↔ y ≠ x ∧ y ∈ s.held) ∧
    (i = .reset → t.held = []) ∧
    ((∀ x, i ≠ .tgSubmitBlocked x) → (∀ x, i ≠ .tgSubmitAccepted x) → i ≠ .reset → t.held = s.held)

/-- Which submissions of its draw Display has yet to see accepted (R99, R101): a TG_SUBMIT that stalls in phase DRAW
is one of them until its payload is accepted, one that stalls in another phase is none, a draw begins with none,
power-up leaves none, and no other request touches the note. DRAW_DONE's request is refused exactly while there is
one (`DrawDoneEndsDraw`). That State holds the note is the model's choice (log 22); it holds no payload twice, which
every run keeps (`StepKeepsInvariant`). -/
def Obligations.DrawSubmissionsAreNoted : Prop :=
  ∀ (s t : State) (r : Request) (rest : List Request), s.drawHeld.Nodup → s.inbox = r :: rest →
    step s = .next t →
    (∀ x, r = .tgSubmit x →
      (s.busy = true → s.phase = .draw → ∀ y, y ∈ t.drawHeld ↔ y = x ∨ y ∈ s.drawHeld) ∧
      (s.busy = true → s.phase ≠ .draw → t.drawHeld = s.drawHeld) ∧
      (s.busy = false → ∀ y, y ∈ t.drawHeld ↔ y ≠ x ∧ y ∈ s.drawHeld)) ∧
    (r = .dpPoll → t.phase = .draw → t.drawHeld = []) ∧
    (r = .powerUp → t.drawHeld = []) ∧
    ((∀ x, r ≠ .tgSubmit x) → ¬ (r = .dpPoll ∧ t.phase = .draw) → r ≠ .powerUp → t.drawHeld = s.drawHeld)

/-- R71: a pseudo-operation ends where its "until" is met, at once if the first attempt meets it, and running
what it asked, from the state it began in, ends where it says: SUBMIT_BLOCKING with its payload accepted and put
out once, WAIT_IDLE with an idle gate, PUMP_ITERATION with the buffer released. What other agents do in between
is an argument (log 21). -/
def Obligations.PseudoOperationsEndWhereTheirUntilIsMet : Prop :=
  ∀ s : State,
    (∀ (met : Returned → Bool) (r : Request) (waits : List (List Interruption)) (k : Stretch)
        (rest : List Request), repeatUntil met r waits s = some k →
      run k.asked.length (s.setInbox (k.asked ++ rest)) = .next (k.final.setInbox rest) ∧
        ∃ v, k.final.returned = some v ∧ met v = true) ∧
    (∀ (met : Returned → Bool) (r : Request) (waits : List (List Interruption)) (t : State) (v : Returned),
      ask r s = some t → t.returned = some v → met v = true → repeatUntil met r waits s = some ⟨[r], t⟩) ∧
    (∀ (x : Payload) (waits : List (List Interruption)) (k : Stretch), submitBlocking x waits s = some k →
      k.final.busy = true ∧ k.final.busActive = true ∧ k.final.emitted = s.emitted ++ [.busStart x]) ∧
    (∀ (waits : List (List Interruption)) (k : Stretch), waitIdle waits s = some k → k.final.busy = false) ∧
    ∀ (waits : List (List Interruption)) (draw : List DrawStep) (between : List Interruption) (k : Stretch)
      (rest : List Request), pumpIteration waits draw between s = some k →
      run k.asked.length (s.setInbox (k.asked ++ rest)) = .next (k.final.setInbox rest) ∧
        k.final.phase = .poll ∧ k.final.ready = false ∧ k.final.cursor = 0
end

