-- ==== Sys2Proof/Laws/Memory.lean ====
section
/-! SUPPORT. The laws of the frame storage: what a write leaves to be read, and that every storage operation
keeps the canonical form. -/

namespace Sys2Proof.Machine

@[simp] theorem Memory.read_nil (a : Nat) : Memory.read [] a = none := rfl

/-- The byte written is the byte read. -/
@[simp] theorem Memory.read_write_same (m : Memory) (a : Nat) (w : Byte) :
    Memory.read (Memory.write m a w) a = some w := by
  induction m with
  | nil => simp [Memory.write, Memory.read]
  | cons c m ih =>
    obtain ⟨k, v⟩ := c
    by_cases hlt : a < k
    · simp [Memory.write, Memory.read, hlt]
    · by_cases heq : a = k
      · simp [Memory.write, Memory.read, heq]
      · simp [Memory.write, Memory.read, hlt, heq, ih]

/-- Every other offset reads as before. -/
theorem Memory.read_write_other (m : Memory) {a x : Nat} (w : Byte) (h : x ≠ a) :
    Memory.read (Memory.write m a w) x = Memory.read m x := by
  induction m with
  | nil => simp [Memory.write, Memory.read, h]
  | cons c m ih =>
    obtain ⟨k, v⟩ := c
    by_cases hlt : a < k
    · simp [Memory.write, Memory.read, hlt, h]
    · by_cases heq : a = k
      · subst heq
        simp [Memory.write, Memory.read, h]
      · simp [Memory.write, Memory.read, hlt, heq, ih]

/-- What one write does to every read. -/
theorem Memory.read_write (m : Memory) (a x : Nat) (w : Byte) :
    Memory.read (Memory.write m a w) x = if x = a then some w else Memory.read m x := by
  by_cases h : x = a
  · subst h; simp
  · simp [h, Memory.read_write_other m w h]

/-- A write at or above a bound keeps the list above it. -/
theorem Memory.above_write (m : Memory) {b a : Nat} (w : Byte) (hb : b < a)
    (hm : Memory.above b m = true) : Memory.above b (Memory.write m a w) = true := by
  induction m with
  | nil => simp [Memory.write, Memory.above, hb]
  | cons c m ih =>
    obtain ⟨k, v⟩ := c
    simp only [Memory.above, Bool.and_eq_true, decide_eq_true_eq] at hm
    by_cases hlt : a < k
    · simp [Memory.write, Memory.above, hlt, hb, hm]
    · by_cases heq : a = k
      · subst heq; simp [Memory.write, Memory.above, hm]
      · simp [Memory.write, Memory.above, hlt, heq, hm.1, ih hm.2]

/-- A list above a bound is above every smaller one. -/
theorem Memory.above_mono {b c : Nat} (h : b ≤ c) :
    ∀ m : Memory, Memory.above c m = true → Memory.above b m = true
  | [], _ => rfl
  | (k, _) :: m, hm => by
    simp only [Memory.above, Bool.and_eq_true, decide_eq_true_eq] at hm ⊢
    exact ⟨by omega, Memory.above_mono h m hm.2⟩

/-- A write keeps the canonical form. -/
theorem Memory.wf_write (m : Memory) (a : Nat) (w : Byte) (hm : Memory.wf m = true) :
    Memory.wf (Memory.write m a w) = true := by
  induction m with
  | nil => rfl
  | cons c m ih =>
    obtain ⟨k, v⟩ := c
    simp only [Memory.wf, Bool.and_eq_true] at hm
    by_cases hlt : a < k
    · simp [Memory.write, Memory.wf, Memory.above, hlt, hm, Memory.above_mono (Nat.le_of_lt hlt) m hm.1]
    · by_cases heq : a = k
      · subst heq; simp [Memory.write, Memory.wf, hm]
      · have hk : k < a := by omega
        simp [Memory.write, Memory.wf, hlt, heq, Memory.above_write m w hk hm.1, ih hm.2]

/-- Storage right after power-up is in canonical form. -/
theorem reset_storage_wf : Memory.wf State.reset.storage = true := rfl

/-- An offset below a bound the list stays above holds nothing. -/
theorem Memory.read_eq_none_of_above {b a : Nat} (h : a ≤ b) :
    ∀ m : Memory, Memory.above b m = true → Memory.read m a = none
  | [], _ => rfl
  | (k, _) :: m, hm => by
    simp only [Memory.above, Bool.and_eq_true, decide_eq_true_eq] at hm
    have hne : a ≠ k := by omega
    simp [Memory.read, hne, Memory.read_eq_none_of_above h m hm.2]

/-- In canonical form, equal reads mean equal data. -/
theorem Memory.ext_of_wf : ∀ m n : Memory, Memory.wf m = true → Memory.wf n = true →
    (∀ a, Memory.read m a = Memory.read n a) → m = n
  | [], [], _, _, _ => rfl
  | [], (k, v) :: n, _, _, h => by simpa [Memory.read] using h k
  | (k, v) :: m, [], _, _, h => by simpa [Memory.read] using h k
  | (k, v) :: m, (l, w) :: n, hm, hn, h => by
    simp only [Memory.wf, Bool.and_eq_true] at hm hn
    have hkl : k = l := by
      rcases Nat.lt_trichotomy k l with hlt | heq | hgt
      · have hk := h k
        have hne : k ≠ l := by omega
        simp [Memory.read, hne, Memory.read_eq_none_of_above (Nat.le_of_lt hlt) n hn.1] at hk
      · exact heq
      · have hl := h l
        have hne : l ≠ k := by omega
        simp [Memory.read, hne, Memory.read_eq_none_of_above (Nat.le_of_lt hgt) m hm.1] at hl
    subst hkl
    have hvw : v = w := by simpa [Memory.read] using h k
    have hmn : m = n := by
      refine Memory.ext_of_wf m n hm.2 hn.2 fun a => ?_
      by_cases ha : a = k
      · subst ha
        rw [Memory.read_eq_none_of_above (Nat.le_refl a) m hm.1,
          Memory.read_eq_none_of_above (Nat.le_refl a) n hn.1]
      · simpa [Memory.read, ha] using h a
    rw [hvw, hmn]

end Sys2Proof.Machine
end

