-- ==== Sys2Proof/Laws/State.lean ====
section
/-! SUPPORT. One lemma per field per update of the state, so that no later proof unfolds an update. -/

namespace Sys2Proof.Machine

variable (s : State)

section setStorage
variable (m : Memory)
@[simp] theorem State.setStorage_storage : (s.setStorage m).storage = m := rfl
@[simp] theorem State.setStorage_cursor : (s.setStorage m).cursor = s.cursor := rfl
@[simp] theorem State.setStorage_ready : (s.setStorage m).ready = s.ready := rfl
@[simp] theorem State.setStorage_busy : (s.setStorage m).busy = s.busy := rfl
@[simp] theorem State.setStorage_armed : (s.setStorage m).armed = s.armed := rfl
@[simp] theorem State.setStorage_phase : (s.setStorage m).phase = s.phase := rfl
@[simp] theorem State.setStorage_busActive : (s.setStorage m).busActive = s.busActive := rfl
@[simp] theorem State.setStorage_params : (s.setStorage m).params = s.params := rfl
@[simp] theorem State.setStorage_inbox : (s.setStorage m).inbox = s.inbox := rfl
@[simp] theorem State.setStorage_held : (s.setStorage m).held = s.held := rfl
@[simp] theorem State.setStorage_drawHeld : (s.setStorage m).drawHeld = s.drawHeld := rfl
@[simp] theorem State.setStorage_returned : (s.setStorage m).returned = s.returned := rfl
@[simp] theorem State.setStorage_emitted : (s.setStorage m).emitted = s.emitted := rfl
@[simp] theorem State.setStorage_capacity : (s.setStorage m).capacity = s.capacity := rfl
end setStorage

section setCursor
variable (k : Nat)
@[simp] theorem State.setCursor_storage : (s.setCursor k).storage = s.storage := rfl
@[simp] theorem State.setCursor_cursor : (s.setCursor k).cursor = k := rfl
@[simp] theorem State.setCursor_ready : (s.setCursor k).ready = s.ready := rfl
@[simp] theorem State.setCursor_busy : (s.setCursor k).busy = s.busy := rfl
@[simp] theorem State.setCursor_armed : (s.setCursor k).armed = s.armed := rfl
@[simp] theorem State.setCursor_phase : (s.setCursor k).phase = s.phase := rfl
@[simp] theorem State.setCursor_busActive : (s.setCursor k).busActive = s.busActive := rfl
@[simp] theorem State.setCursor_params : (s.setCursor k).params = s.params := rfl
@[simp] theorem State.setCursor_inbox : (s.setCursor k).inbox = s.inbox := rfl
@[simp] theorem State.setCursor_held : (s.setCursor k).held = s.held := rfl
@[simp] theorem State.setCursor_drawHeld : (s.setCursor k).drawHeld = s.drawHeld := rfl
@[simp] theorem State.setCursor_returned : (s.setCursor k).returned = s.returned := rfl
@[simp] theorem State.setCursor_emitted : (s.setCursor k).emitted = s.emitted := rfl
@[simp] theorem State.setCursor_capacity : (s.setCursor k).capacity = s.capacity := rfl
end setCursor

section setReady
variable (v : Bool)
@[simp] theorem State.setReady_storage : (s.setReady v).storage = s.storage := rfl
@[simp] theorem State.setReady_cursor : (s.setReady v).cursor = s.cursor := rfl
@[simp] theorem State.setReady_ready : (s.setReady v).ready = v := rfl
@[simp] theorem State.setReady_busy : (s.setReady v).busy = s.busy := rfl
@[simp] theorem State.setReady_armed : (s.setReady v).armed = s.armed := rfl
@[simp] theorem State.setReady_phase : (s.setReady v).phase = s.phase := rfl
@[simp] theorem State.setReady_busActive : (s.setReady v).busActive = s.busActive := rfl
@[simp] theorem State.setReady_params : (s.setReady v).params = s.params := rfl
@[simp] theorem State.setReady_inbox : (s.setReady v).inbox = s.inbox := rfl
@[simp] theorem State.setReady_held : (s.setReady v).held = s.held := rfl
@[simp] theorem State.setReady_drawHeld : (s.setReady v).drawHeld = s.drawHeld := rfl
@[simp] theorem State.setReady_returned : (s.setReady v).returned = s.returned := rfl
@[simp] theorem State.setReady_emitted : (s.setReady v).emitted = s.emitted := rfl
@[simp] theorem State.setReady_capacity : (s.setReady v).capacity = s.capacity := rfl
end setReady

section setBusy
variable (v : Bool)
@[simp] theorem State.setBusy_storage : (s.setBusy v).storage = s.storage := rfl
@[simp] theorem State.setBusy_cursor : (s.setBusy v).cursor = s.cursor := rfl
@[simp] theorem State.setBusy_ready : (s.setBusy v).ready = s.ready := rfl
@[simp] theorem State.setBusy_busy : (s.setBusy v).busy = v := rfl
@[simp] theorem State.setBusy_armed : (s.setBusy v).armed = s.armed := rfl
@[simp] theorem State.setBusy_phase : (s.setBusy v).phase = s.phase := rfl
@[simp] theorem State.setBusy_busActive : (s.setBusy v).busActive = s.busActive := rfl
@[simp] theorem State.setBusy_params : (s.setBusy v).params = s.params := rfl
@[simp] theorem State.setBusy_inbox : (s.setBusy v).inbox = s.inbox := rfl
@[simp] theorem State.setBusy_held : (s.setBusy v).held = s.held := rfl
@[simp] theorem State.setBusy_drawHeld : (s.setBusy v).drawHeld = s.drawHeld := rfl
@[simp] theorem State.setBusy_returned : (s.setBusy v).returned = s.returned := rfl
@[simp] theorem State.setBusy_emitted : (s.setBusy v).emitted = s.emitted := rfl
@[simp] theorem State.setBusy_capacity : (s.setBusy v).capacity = s.capacity := rfl
end setBusy

section setArmed
variable (v : Bool)
@[simp] theorem State.setArmed_storage : (s.setArmed v).storage = s.storage := rfl
@[simp] theorem State.setArmed_cursor : (s.setArmed v).cursor = s.cursor := rfl
@[simp] theorem State.setArmed_ready : (s.setArmed v).ready = s.ready := rfl
@[simp] theorem State.setArmed_busy : (s.setArmed v).busy = s.busy := rfl
@[simp] theorem State.setArmed_armed : (s.setArmed v).armed = v := rfl
@[simp] theorem State.setArmed_phase : (s.setArmed v).phase = s.phase := rfl
@[simp] theorem State.setArmed_busActive : (s.setArmed v).busActive = s.busActive := rfl
@[simp] theorem State.setArmed_params : (s.setArmed v).params = s.params := rfl
@[simp] theorem State.setArmed_inbox : (s.setArmed v).inbox = s.inbox := rfl
@[simp] theorem State.setArmed_held : (s.setArmed v).held = s.held := rfl
@[simp] theorem State.setArmed_drawHeld : (s.setArmed v).drawHeld = s.drawHeld := rfl
@[simp] theorem State.setArmed_returned : (s.setArmed v).returned = s.returned := rfl
@[simp] theorem State.setArmed_emitted : (s.setArmed v).emitted = s.emitted := rfl
@[simp] theorem State.setArmed_capacity : (s.setArmed v).capacity = s.capacity := rfl
end setArmed

section setPhase
variable (v : Phase)
@[simp] theorem State.setPhase_storage : (s.setPhase v).storage = s.storage := rfl
@[simp] theorem State.setPhase_cursor : (s.setPhase v).cursor = s.cursor := rfl
@[simp] theorem State.setPhase_ready : (s.setPhase v).ready = s.ready := rfl
@[simp] theorem State.setPhase_busy : (s.setPhase v).busy = s.busy := rfl
@[simp] theorem State.setPhase_armed : (s.setPhase v).armed = s.armed := rfl
@[simp] theorem State.setPhase_phase : (s.setPhase v).phase = v := rfl
@[simp] theorem State.setPhase_busActive : (s.setPhase v).busActive = s.busActive := rfl
@[simp] theorem State.setPhase_params : (s.setPhase v).params = s.params := rfl
@[simp] theorem State.setPhase_inbox : (s.setPhase v).inbox = s.inbox := rfl
@[simp] theorem State.setPhase_held : (s.setPhase v).held = s.held := rfl
@[simp] theorem State.setPhase_drawHeld : (s.setPhase v).drawHeld = s.drawHeld := rfl
@[simp] theorem State.setPhase_returned : (s.setPhase v).returned = s.returned := rfl
@[simp] theorem State.setPhase_emitted : (s.setPhase v).emitted = s.emitted := rfl
@[simp] theorem State.setPhase_capacity : (s.setPhase v).capacity = s.capacity := rfl
end setPhase

section setBusActive
variable (v : Bool)
@[simp] theorem State.setBusActive_storage : (s.setBusActive v).storage = s.storage := rfl
@[simp] theorem State.setBusActive_cursor : (s.setBusActive v).cursor = s.cursor := rfl
@[simp] theorem State.setBusActive_ready : (s.setBusActive v).ready = s.ready := rfl
@[simp] theorem State.setBusActive_busy : (s.setBusActive v).busy = s.busy := rfl
@[simp] theorem State.setBusActive_armed : (s.setBusActive v).armed = s.armed := rfl
@[simp] theorem State.setBusActive_phase : (s.setBusActive v).phase = s.phase := rfl
@[simp] theorem State.setBusActive_busActive : (s.setBusActive v).busActive = v := rfl
@[simp] theorem State.setBusActive_params : (s.setBusActive v).params = s.params := rfl
@[simp] theorem State.setBusActive_inbox : (s.setBusActive v).inbox = s.inbox := rfl
@[simp] theorem State.setBusActive_held : (s.setBusActive v).held = s.held := rfl
@[simp] theorem State.setBusActive_drawHeld : (s.setBusActive v).drawHeld = s.drawHeld := rfl
@[simp] theorem State.setBusActive_returned : (s.setBusActive v).returned = s.returned := rfl
@[simp] theorem State.setBusActive_emitted : (s.setBusActive v).emitted = s.emitted := rfl
@[simp] theorem State.setBusActive_capacity : (s.setBusActive v).capacity = s.capacity := rfl
end setBusActive

section setInbox
variable (q : List Request)
@[simp] theorem State.setInbox_storage : (s.setInbox q).storage = s.storage := rfl
@[simp] theorem State.setInbox_cursor : (s.setInbox q).cursor = s.cursor := rfl
@[simp] theorem State.setInbox_ready : (s.setInbox q).ready = s.ready := rfl
@[simp] theorem State.setInbox_busy : (s.setInbox q).busy = s.busy := rfl
@[simp] theorem State.setInbox_armed : (s.setInbox q).armed = s.armed := rfl
@[simp] theorem State.setInbox_phase : (s.setInbox q).phase = s.phase := rfl
@[simp] theorem State.setInbox_busActive : (s.setInbox q).busActive = s.busActive := rfl
@[simp] theorem State.setInbox_params : (s.setInbox q).params = s.params := rfl
@[simp] theorem State.setInbox_inbox : (s.setInbox q).inbox = q := rfl
@[simp] theorem State.setInbox_held : (s.setInbox q).held = s.held := rfl
@[simp] theorem State.setInbox_drawHeld : (s.setInbox q).drawHeld = s.drawHeld := rfl
@[simp] theorem State.setInbox_returned : (s.setInbox q).returned = s.returned := rfl
@[simp] theorem State.setInbox_emitted : (s.setInbox q).emitted = s.emitted := rfl
@[simp] theorem State.setInbox_capacity : (s.setInbox q).capacity = s.capacity := rfl
end setInbox

section setHeld
variable (l : List Payload)
@[simp] theorem State.setHeld_storage : (s.setHeld l).storage = s.storage := rfl
@[simp] theorem State.setHeld_cursor : (s.setHeld l).cursor = s.cursor := rfl
@[simp] theorem State.setHeld_ready : (s.setHeld l).ready = s.ready := rfl
@[simp] theorem State.setHeld_busy : (s.setHeld l).busy = s.busy := rfl
@[simp] theorem State.setHeld_armed : (s.setHeld l).armed = s.armed := rfl
@[simp] theorem State.setHeld_phase : (s.setHeld l).phase = s.phase := rfl
@[simp] theorem State.setHeld_busActive : (s.setHeld l).busActive = s.busActive := rfl
@[simp] theorem State.setHeld_params : (s.setHeld l).params = s.params := rfl
@[simp] theorem State.setHeld_inbox : (s.setHeld l).inbox = s.inbox := rfl
@[simp] theorem State.setHeld_held : (s.setHeld l).held = l := rfl
@[simp] theorem State.setHeld_drawHeld : (s.setHeld l).drawHeld = s.drawHeld := rfl
@[simp] theorem State.setHeld_returned : (s.setHeld l).returned = s.returned := rfl
@[simp] theorem State.setHeld_emitted : (s.setHeld l).emitted = s.emitted := rfl
@[simp] theorem State.setHeld_capacity : (s.setHeld l).capacity = s.capacity := rfl
end setHeld

section setDrawHeld
variable (l : List Payload)
@[simp] theorem State.setDrawHeld_storage : (s.setDrawHeld l).storage = s.storage := rfl
@[simp] theorem State.setDrawHeld_cursor : (s.setDrawHeld l).cursor = s.cursor := rfl
@[simp] theorem State.setDrawHeld_ready : (s.setDrawHeld l).ready = s.ready := rfl
@[simp] theorem State.setDrawHeld_busy : (s.setDrawHeld l).busy = s.busy := rfl
@[simp] theorem State.setDrawHeld_armed : (s.setDrawHeld l).armed = s.armed := rfl
@[simp] theorem State.setDrawHeld_phase : (s.setDrawHeld l).phase = s.phase := rfl
@[simp] theorem State.setDrawHeld_busActive : (s.setDrawHeld l).busActive = s.busActive := rfl
@[simp] theorem State.setDrawHeld_params : (s.setDrawHeld l).params = s.params := rfl
@[simp] theorem State.setDrawHeld_inbox : (s.setDrawHeld l).inbox = s.inbox := rfl
@[simp] theorem State.setDrawHeld_held : (s.setDrawHeld l).held = s.held := rfl
@[simp] theorem State.setDrawHeld_drawHeld : (s.setDrawHeld l).drawHeld = l := rfl
@[simp] theorem State.setDrawHeld_returned : (s.setDrawHeld l).returned = s.returned := rfl
@[simp] theorem State.setDrawHeld_emitted : (s.setDrawHeld l).emitted = s.emitted := rfl
@[simp] theorem State.setDrawHeld_capacity : (s.setDrawHeld l).capacity = s.capacity := rfl
@[simp] theorem State.setDrawHeld_self : s.setDrawHeld s.drawHeld = s := rfl
end setDrawHeld

section setReturned
variable (r : Returned)
@[simp] theorem State.setReturned_storage : (s.setReturned r).storage = s.storage := rfl
@[simp] theorem State.setReturned_cursor : (s.setReturned r).cursor = s.cursor := rfl
@[simp] theorem State.setReturned_ready : (s.setReturned r).ready = s.ready := rfl
@[simp] theorem State.setReturned_busy : (s.setReturned r).busy = s.busy := rfl
@[simp] theorem State.setReturned_armed : (s.setReturned r).armed = s.armed := rfl
@[simp] theorem State.setReturned_phase : (s.setReturned r).phase = s.phase := rfl
@[simp] theorem State.setReturned_busActive : (s.setReturned r).busActive = s.busActive := rfl
@[simp] theorem State.setReturned_params : (s.setReturned r).params = s.params := rfl
@[simp] theorem State.setReturned_inbox : (s.setReturned r).inbox = s.inbox := rfl
@[simp] theorem State.setReturned_held : (s.setReturned r).held = s.held := rfl
@[simp] theorem State.setReturned_drawHeld : (s.setReturned r).drawHeld = s.drawHeld := rfl
@[simp] theorem State.setReturned_returned : (s.setReturned r).returned = some r := rfl
@[simp] theorem State.setReturned_emitted : (s.setReturned r).emitted = s.emitted := rfl
@[simp] theorem State.setReturned_capacity : (s.setReturned r).capacity = s.capacity := rfl
end setReturned

section addEmitted
variable (e : Emission)
@[simp] theorem State.addEmitted_storage : (s.addEmitted e).storage = s.storage := rfl
@[simp] theorem State.addEmitted_cursor : (s.addEmitted e).cursor = s.cursor := rfl
@[simp] theorem State.addEmitted_ready : (s.addEmitted e).ready = s.ready := rfl
@[simp] theorem State.addEmitted_busy : (s.addEmitted e).busy = s.busy := rfl
@[simp] theorem State.addEmitted_armed : (s.addEmitted e).armed = s.armed := rfl
@[simp] theorem State.addEmitted_phase : (s.addEmitted e).phase = s.phase := rfl
@[simp] theorem State.addEmitted_busActive : (s.addEmitted e).busActive = s.busActive := rfl
@[simp] theorem State.addEmitted_params : (s.addEmitted e).params = s.params := rfl
@[simp] theorem State.addEmitted_inbox : (s.addEmitted e).inbox = s.inbox := rfl
@[simp] theorem State.addEmitted_held : (s.addEmitted e).held = s.held := rfl
@[simp] theorem State.addEmitted_drawHeld : (s.addEmitted e).drawHeld = s.drawHeld := rfl
@[simp] theorem State.addEmitted_returned : (s.addEmitted e).returned = s.returned := rfl
@[simp] theorem State.addEmitted_emitted : (s.addEmitted e).emitted = s.emitted ++ [e] := rfl
@[simp] theorem State.addEmitted_capacity : (s.addEmitted e).capacity = s.capacity := rfl
end addEmitted

section resetWith
variable (p : Params)
@[simp] theorem State.resetWith_storage : (State.resetWith p).storage = [] := rfl
@[simp] theorem State.resetWith_cursor : (State.resetWith p).cursor = 0 := rfl
@[simp] theorem State.resetWith_ready : (State.resetWith p).ready = false := rfl
@[simp] theorem State.resetWith_busy : (State.resetWith p).busy = false := rfl
@[simp] theorem State.resetWith_armed : (State.resetWith p).armed = false := rfl
@[simp] theorem State.resetWith_phase : (State.resetWith p).phase = .poll := rfl
@[simp] theorem State.resetWith_busActive : (State.resetWith p).busActive = false := rfl
@[simp] theorem State.resetWith_params : (State.resetWith p).params = p := rfl
@[simp] theorem State.resetWith_inbox : (State.resetWith p).inbox = [] := rfl
@[simp] theorem State.resetWith_held : (State.resetWith p).held = [] := rfl
@[simp] theorem State.resetWith_drawHeld : (State.resetWith p).drawHeld = [] := rfl
@[simp] theorem State.resetWith_returned : (State.resetWith p).returned = none := rfl
@[simp] theorem State.resetWith_emitted : (State.resetWith p).emitted = [] := rfl
@[simp] theorem State.resetWith_capacity : (State.resetWith p).capacity = p.capacity := rfl
end resetWith

end Sys2Proof.Machine
end

