-- ==== Sys2Proof/Laws/Ops.lean ====
section
/-! SUPPORT. One law per shared operation: everything it can do. -/

namespace Sys2Proof.Machine

/-- A storage write that answers a state wrote one byte in range and nothing else. -/
theorem memWrite_next {off : Nat} {v : Byte} {s t : State} (h : memWrite off v s = .next t) :
    off < s.capacity ∧ t = s.setStorage (Memory.write s.storage off v) := by
  unfold memWrite at h
  split at h
  · next hlt => exact ⟨hlt, by cases h; rfl⟩
  · cases h

/-- A storage write in range answers. -/
theorem memWrite_inRange {off : Nat} (v : Byte) {s : State} (h : off < s.capacity) :
    memWrite off v s = .next (s.setStorage (Memory.write s.storage off v)) := by
  simp [memWrite, h]

/-- A storage read that answers a byte answers the one the storage holds there. -/
theorem memRead_next {off : Nat} {s : State} {v : Byte} (h : memRead off s = .next v) :
    off < s.capacity ∧ Memory.read s.storage off = some v := by
  unfold memRead at h
  split at h
  · next hlt =>
    cases hr : Memory.read s.storage off with
    | some w => rw [hr] at h; cases h; exact ⟨hlt, rfl⟩
    | none => rw [hr] at h; cases h
  · cases h

/-- A storage read in range, of a byte that has a value, answers it. -/
theorem memRead_inRange {off : Nat} {s : State} {v : Byte} (h : off < s.capacity)
    (hv : Memory.read s.storage off = some v) : memRead off s = .next v := by
  simp [memRead, h, hv]

/-- An activation is its handler: entry and return change nothing. -/
@[simp] theorem activation_eq (handler : State → Result) (s : State) : activation handler s = handler s := by
  unfold activation enterHandler leaveHandler
  cases handler s <;> rfl

/-- A guarded operation whose condition holds is the operation. -/
@[simp] theorem enabledWhen_true (r : Refusal) (op : State → Result) (s : State) :
    enabledWhen true r op s = op s := rfl

/-- A guarded operation whose condition fails is refused. -/
@[simp] theorem enabledWhen_false (r : Refusal) (op : State → Result) (s : State) :
    enabledWhen false r op s = .refused r := rfl

/-- A guarded operation answers a state only where its condition holds. -/
theorem enabledWhen_next {c : Bool} {r : Refusal} {op : State → Result} {s t : State}
    (h : enabledWhen c r op s = .next t) : c = true ∧ op s = .next t := by
  cases c with
  | true => exact ⟨rfl, h⟩
  | false => cases h

/-- What Display keeps after a stall: what it kept, and this payload. -/
@[simp] theorem mem_keepPayload {x y : Payload} {l : List Payload} :
    y ∈ keepPayload x l ↔ y = x ∨ y ∈ l := by
  unfold keepPayload
  split
  · next h => exact ⟨.inr, fun hy => hy.elim (fun e => e ▸ h) id⟩
  · simp [or_comm]

/-- Stalling again changes nothing (R108 (a)). -/
theorem keepPayload_of_mem {x : Payload} {l : List Payload} (h : x ∈ l) : keepPayload x l = l := if_pos h

/-- A stall keeps each payload once. -/
theorem keepPayload_nodup (x : Payload) {l : List Payload} (h : l.Nodup) : (keepPayload x l).Nodup := by
  unfold keepPayload
  split
  · exact h
  · next hx =>
    rw [List.nodup_append]
    refine ⟨h, List.nodup_singleton x, fun y hy z hz => ?_⟩
    rintro rfl
    exact hx (List.mem_singleton.mp hz ▸ hy)

/-- What Display keeps after an acceptance: all but this payload. -/
theorem mem_handOver {x y : Payload} {l : List Payload} (h : l.Nodup) : y ∈ handOver x l ↔ y ≠ x ∧ y ∈ l :=
  h.mem_erase_iff

/-- An acceptance keeps each payload once. -/
theorem handOver_nodup (x : Payload) {l : List Payload} (h : l.Nodup) : (handOver x l).Nodup := h.erase x

/-- The ownership test fails exactly under the precondition of R80 and R82. -/
theorem bufferClosed_eq_false {s : State} :
    bufferClosed s = false ↔ s.ready = false ∧ s.cursor < s.capacity := by
  simp [bufferClosed]

/-- The ownership test, as the complement of that precondition. -/
theorem bufferClosed_eq_true {s : State} :
    bufferClosed s = true ↔ s.ready = true ∨ s.capacity ≤ s.cursor := by
  simp [bufferClosed]

/-- `CAPACITY` fits the cursor's bits. -/
theorem capacity_lt_two_pow (p : Params) : p.capacity < 2 ^ p.cursorW := by
  unfold Params.cursorW
  split
  · next h => simp [h]
  · exact Nat.lt_log2_self

/-- Below `CAPACITY` the cursor advances by one and does not wrap. -/
theorem advance_eq {p : Params} {k : Nat} (h : k < p.capacity) : advance p k = k + 1 := by
  unfold advance
  have := capacity_lt_two_pow p
  exact Nat.mod_eq_of_lt (by omega)

/-- An admitted configuration has a frame of at least one byte. -/
theorem capacity_pos {p : Params} (h : p.valid = true) : 0 < p.capacity := by
  simp only [Params.valid, Bool.and_eq_true, decide_eq_true_eq] at h
  obtain ⟨⟨⟨⟨hw, hh⟩, hb⟩, hdiv⟩, -⟩ := h
  have hpos : 0 < p.width * p.height * p.bpp := Nat.mul_pos (Nat.mul_pos hw hh) hb
  unfold Params.capacity
  omega

end Sys2Proof.Machine
end

