-- ==== Sys2Proof/Laws/Exec.lean ====
section
/-! SUPPORT. One inversion lemma per operation: if it answers a state, then it was enabled and this is the
state. Claims over every operation split on `exec` and cite these. -/

namespace Sys2Proof.Machine

@[simp] theorem powerUpState_storage (s : State) : (powerUpState s).storage = [] := rfl
@[simp] theorem powerUpState_cursor (s : State) : (powerUpState s).cursor = 0 := rfl
@[simp] theorem powerUpState_ready (s : State) : (powerUpState s).ready = false := rfl
@[simp] theorem powerUpState_busy (s : State) : (powerUpState s).busy = false := rfl
@[simp] theorem powerUpState_armed (s : State) : (powerUpState s).armed = false := rfl
@[simp] theorem powerUpState_phase (s : State) : (powerUpState s).phase = .poll := rfl
@[simp] theorem powerUpState_busActive (s : State) : (powerUpState s).busActive = false := rfl
@[simp] theorem powerUpState_params (s : State) : (powerUpState s).params = s.params := rfl
@[simp] theorem powerUpState_inbox (s : State) : (powerUpState s).inbox = s.inbox := rfl
@[simp] theorem powerUpState_held (s : State) : (powerUpState s).held = [] := rfl
@[simp] theorem powerUpState_drawHeld (s : State) : (powerUpState s).drawHeld = [] := rfl
@[simp] theorem powerUpState_returned (s : State) : (powerUpState s).returned = s.returned := rfl
@[simp] theorem powerUpState_emitted (s : State) : (powerUpState s).emitted = s.emitted := rfl
@[simp] theorem powerUpState_capacity (s : State) : (powerUpState s).capacity = s.capacity := rfl

variable {s t : State}

theorem execRxData_next {b : Byte} (h : execRxData b s = .next t) :
    s.ready = false ∧ s.cursor < s.capacity ∧ b ≠ s.params.sentinel ∧
      t = ((s.setStorage (Memory.write s.storage s.cursor b)).setCursor (s.cursor + 1)).setReady
        (decide (s.cursor + 1 = s.capacity)) := by
  unfold execRxData at h
  obtain ⟨hopen, h⟩ := enabledWhen_next h
  obtain ⟨hdata, h⟩ := enabledWhen_next h
  obtain ⟨hready, hlt⟩ := bufferClosed_eq_false.mp (by simpa using hopen)
  have hk : advance s.params s.cursor = s.cursor + 1 := advance_eq hlt
  refine ⟨hready, hlt, by simpa using hdata, ?_⟩
  simp only [activation_eq, storeData, storeOffset, memWrite_inRange b hlt, hk, readyAfter, hready,
    Bool.false_or] at h
  cases h
  rfl

theorem execRxSentinel_next {b : Byte} (h : execRxSentinel b s = .next t) :
    s.ready = false ∧ s.cursor < s.capacity ∧ b = s.params.sentinel ∧
      t = (s.setStorage (Memory.write s.storage s.cursor b)).setCursor 0 := by
  unfold execRxSentinel at h
  obtain ⟨hopen, h⟩ := enabledWhen_next h
  obtain ⟨hsent, h⟩ := enabledWhen_next h
  obtain ⟨hready, hlt⟩ := bufferClosed_eq_false.mp (by simpa using hopen)
  refine ⟨hready, hlt, by simpa using hsent, ?_⟩
  simp only [activation_eq, storeSentinel, storeOffset, memWrite_inRange b hlt] at h
  cases h
  rfl

theorem execRxDrop_next (b : Byte) (h : execRxDrop b s = .next t) :
    (s.ready = true ∨ s.capacity ≤ s.cursor) ∧ t = s := by
  obtain ⟨hclosed, h⟩ := enabledWhen_next h
  refine ⟨bufferClosed_eq_true.mp hclosed, ?_⟩
  rw [activation_eq] at h
  cases h
  rfl

theorem execRxNone_next (h : execRxNone s = .next t) : t = s := by
  unfold execRxNone at h
  rw [activation_eq] at h
  cases h
  rfl

theorem execDpPoll_next (h : execDpPoll s = .next t) :
    s.phase = .poll ∧
      ((s.ready = true ∧ t = ((s.setPhase .draw).addEmitted (drawStart s)).setReturned (.bit true)) ∨
        (s.ready = false ∧ t = s.setReturned (.bit false))) := by
  obtain ⟨hphase, h⟩ := enabledWhen_next h
  refine ⟨by simpa using hphase, ?_⟩
  unfold poll at h
  cases hr : s.ready with
  | true => rw [hr, if_pos rfl] at h; cases h; exact .inl ⟨rfl, rfl⟩
  | false => rw [hr, if_neg (by decide)] at h; cases h; exact .inr ⟨rfl, rfl⟩

theorem execFbRead_next {off : Nat} (h : execFbRead off s = .next t) :
    s.phase = .draw ∧ s.ready = true ∧ off < s.capacity ∧
      ∃ v, Memory.read s.storage off = some v ∧ t = s.setReturned (.byte v) := by
  obtain ⟨hphase, h⟩ := enabledWhen_next h
  obtain ⟨hready, h⟩ := enabledWhen_next h
  obtain ⟨hlt, h⟩ := enabledWhen_next h
  refine ⟨by simpa using hphase, hready, by simpa using hlt, ?_⟩
  unfold readFrame at h
  cases hr : memRead off s with
  | next v => rw [hr] at h; cases h; exact ⟨v, (memRead_next hr).2, rfl⟩
  | fault f => rw [hr] at h; cases h
  | refused r => rw [hr] at h; cases h

theorem execDrawDone_next (h : execDrawDone s = .next t) : s.phase = .draw ∧ t = s.setPhase .done := by
  obtain ⟨hphase, h⟩ := enabledWhen_next h
  cases h
  exact ⟨by simpa using hphase, rfl⟩

theorem execDpRelease_next (h : execDpRelease s = .next t) :
    s.phase = .done ∧ t = ((s.setCursor 0).setReady false).setPhase .poll := by
  obtain ⟨hphase, h⟩ := enabledWhen_next h
  cases h
  exact ⟨by simpa using hphase, rfl⟩

theorem execTgSubmitAccepted_next {x : Payload} (h : execTgSubmitAccepted x s = .next t) :
    s.busy = false ∧
      t = ((((s.setBusy true).setBusActive true).setHeld (handOver x s.held)).addEmitted (.busStart x)).setReturned
        .accepted := by
  obtain ⟨hidle, h⟩ := enabledWhen_next h
  cases h
  exact ⟨by simpa using hidle, rfl⟩

theorem execTgSubmitBlocked_next {x : Payload} (h : execTgSubmitBlocked x s = .next t) :
    s.busy = true ∧ t = ((s.setArmed true).setHeld (keepPayload x s.held)).setReturned .stalled := by
  obtain ⟨hbusy, h⟩ := enabledWhen_next h
  cases h
  exact ⟨hbusy, rfl⟩

theorem execTgQuery_next (h : execTgQuery s = .next t) :
    t = (s.setArmed true).setReturned (.bit s.busy) := by
  cases h
  rfl

theorem execBusComplete_next (h : execBusComplete s = .next t) :
    s.busActive = true ∧ t = s.setBusActive false := by
  obtain ⟨hactive, h⟩ := enabledWhen_next h
  cases h
  exact ⟨hactive, rfl⟩

theorem execTgIrq_next (h : execTgIrq s = .next t) :
    s.armed = true ∧ s.busActive = false ∧ t = (s.setBusy false).setArmed false := by
  obtain ⟨hpending, h⟩ := enabledWhen_next h
  simp only [completionPending, Bool.and_eq_true, Bool.not_eq_true'] at hpending
  rw [activation_eq] at h
  cases h
  exact ⟨hpending.1, hpending.2, rfl⟩

theorem execReset_next (h : execReset s = .next t) :
    t = powerUpState s := by
  cases h
  rfl

/-- No operation touches the schedule. -/
theorem exec_inbox {i : Instr} (h : exec i s = .next t) : t.inbox = s.inbox := by
  cases i with
  | rxData b => obtain ⟨-, -, -, rfl⟩ := execRxData_next h; rfl
  | rxSentinel b => obtain ⟨-, -, -, rfl⟩ := execRxSentinel_next h; rfl
  | rxDrop b => obtain ⟨-, rfl⟩ := execRxDrop_next b h; rfl
  | rxNone => obtain rfl := execRxNone_next h; rfl
  | dpPoll => obtain ⟨-, ⟨-, rfl⟩ | ⟨-, rfl⟩⟩ := execDpPoll_next h <;> rfl
  | fbRead off => obtain ⟨-, -, -, v, -, rfl⟩ := execFbRead_next h; rfl
  | drawDone => obtain ⟨-, rfl⟩ := execDrawDone_next h; rfl
  | dpRelease => obtain ⟨-, rfl⟩ := execDpRelease_next h; rfl
  | tgSubmitAccepted x => obtain ⟨-, rfl⟩ := execTgSubmitAccepted_next h; rfl
  | tgSubmitBlocked x => obtain ⟨-, rfl⟩ := execTgSubmitBlocked_next h; rfl
  | tgQuery => obtain rfl := execTgQuery_next h; rfl
  | busComplete => obtain ⟨-, rfl⟩ := execBusComplete_next h; rfl
  | tgIrq => obtain ⟨-, -, rfl⟩ := execTgIrq_next h; rfl
  | reset => obtain rfl := execReset_next h; rfl

/-- No operation touches what Display notes of its draw, but power-up, which ends it. -/
theorem exec_drawHeld {i : Instr} (h : exec i s = .next t) : t.drawHeld = if i = .reset then [] else s.drawHeld := by
  cases i with
  | rxData b => obtain ⟨-, -, -, rfl⟩ := execRxData_next h; rfl
  | rxSentinel b => obtain ⟨-, -, -, rfl⟩ := execRxSentinel_next h; rfl
  | rxDrop b => obtain ⟨-, rfl⟩ := execRxDrop_next b h; rfl
  | rxNone => obtain rfl := execRxNone_next h; rfl
  | dpPoll => obtain ⟨-, ⟨-, rfl⟩ | ⟨-, rfl⟩⟩ := execDpPoll_next h <;> rfl
  | fbRead off => obtain ⟨-, -, -, v, -, rfl⟩ := execFbRead_next h; rfl
  | drawDone => obtain ⟨-, rfl⟩ := execDrawDone_next h; rfl
  | dpRelease => obtain ⟨-, rfl⟩ := execDpRelease_next h; rfl
  | tgSubmitAccepted x => obtain ⟨-, rfl⟩ := execTgSubmitAccepted_next h; rfl
  | tgSubmitBlocked x => obtain ⟨-, rfl⟩ := execTgSubmitBlocked_next h; rfl
  | tgQuery => obtain rfl := execTgQuery_next h; rfl
  | busComplete => obtain ⟨-, rfl⟩ := execBusComplete_next h; rfl
  | tgIrq => obtain ⟨-, -, rfl⟩ := execTgIrq_next h; rfl
  | reset => obtain rfl := execReset_next h; rfl

/-- No operation looks at the schedule: it runs alike under another. -/
theorem exec_setInbox {i : Instr} (q : List Request) (h : exec i s = .next t) :
    exec i (s.setInbox q) = .next (t.setInbox q) := by
  cases i with
  | rxData b =>
    obtain ⟨hr, hc, hb, rfl⟩ := execRxData_next h
    have hopen : bufferClosed (s.setInbox q) = false := bufferClosed_eq_false.mpr ⟨hr, hc⟩
    have hc' : s.cursor < (s.setInbox q).capacity := hc
    simp [exec, execRxData, hopen, hb, storeData, storeOffset, memWrite_inRange b hc', readyAfter, hr, advance_eq hc]
    rfl
  | rxSentinel b =>
    obtain ⟨hr, hc, hb, rfl⟩ := execRxSentinel_next h
    have hopen : bufferClosed (s.setInbox q) = false := bufferClosed_eq_false.mpr ⟨hr, hc⟩
    have hc' : s.cursor < (s.setInbox q).capacity := hc
    simp [exec, execRxSentinel, hopen, hb, storeSentinel, storeOffset, memWrite_inRange s.params.sentinel hc']
    rfl
  | rxDrop b =>
    obtain ⟨hclosed, rfl⟩ := execRxDrop_next b h
    have hclosed' : bufferClosed (t.setInbox q) = true := bufferClosed_eq_true.mpr hclosed
    simp [exec, execRxDrop, hclosed']
  | rxNone => obtain rfl := execRxNone_next h; simp [exec, execRxNone]
  | dpPoll =>
    obtain ⟨hp, ⟨hr, rfl⟩ | ⟨hr, rfl⟩⟩ := execDpPoll_next h <;> simp [exec, execDpPoll, poll, hp, hr] <;> rfl
  | fbRead off =>
    obtain ⟨hp, hr, hlt, v, hv, rfl⟩ := execFbRead_next h
    have hlt' : off < (s.setInbox q).capacity := hlt
    simp [exec, execFbRead, hp, hr, hlt, readFrame, memRead_inRange hlt' (by simpa using hv)]
    rfl
  | drawDone => obtain ⟨hp, rfl⟩ := execDrawDone_next h; simp [exec, execDrawDone, hp]; rfl
  | dpRelease => obtain ⟨hp, rfl⟩ := execDpRelease_next h; simp [exec, execDpRelease, hp]; rfl
  | tgSubmitAccepted x => obtain ⟨hb, rfl⟩ := execTgSubmitAccepted_next h; simp [exec, execTgSubmitAccepted, hb]; rfl
  | tgSubmitBlocked x => obtain ⟨hb, rfl⟩ := execTgSubmitBlocked_next h; simp [exec, execTgSubmitBlocked, hb]; rfl
  | tgQuery => obtain rfl := execTgQuery_next h; rfl
  | busComplete => obtain ⟨ha, rfl⟩ := execBusComplete_next h; simp [exec, execBusComplete, ha]; rfl
  | tgIrq =>
    obtain ⟨ha, hb, rfl⟩ := execTgIrq_next h
    simp [exec, execTgIrq, completionPending, ha, hb]
    rfl
  | reset => obtain rfl := execReset_next h; rfl

end Sys2Proof.Machine
end

