-- ==== Sys2Proof/Laws/PerInstr.lean ====
section
/-! SUPPORT. A law of the operations as syntax, one lemma per constructor. -/

namespace Sys2Proof.Laws.RequestAgent

/-- The request that carries an operation is performed by the agent that R58 gives the operation; and the
operation's own agent makes it, but for the receiver's operations, which SerialLink brings about (R9). -/
def Statement (i : Instr) : Prop :=
  (encode i).agent.performer = i.agent ∧
    (encode i).agent = if i.agent = .frameReceiver then .serialLink else i.agent

theorem rxData (b : Byte) : Statement (.rxData b) := ⟨rfl, rfl⟩
theorem rxSentinel (b : Byte) : Statement (.rxSentinel b) := ⟨rfl, rfl⟩
theorem rxDrop (b : Byte) : Statement (.rxDrop b) := ⟨rfl, rfl⟩
theorem rxNone : Statement .rxNone := ⟨rfl, rfl⟩
theorem dpPoll : Statement .dpPoll := ⟨rfl, rfl⟩
theorem fbRead (off : Nat) : Statement (.fbRead off) := ⟨rfl, rfl⟩
theorem drawDone : Statement .drawDone := ⟨rfl, rfl⟩
theorem dpRelease : Statement .dpRelease := ⟨rfl, rfl⟩
theorem tgSubmitAccepted (x : Payload) : Statement (.tgSubmitAccepted x) := ⟨rfl, rfl⟩
theorem tgSubmitBlocked (x : Payload) : Statement (.tgSubmitBlocked x) := ⟨rfl, rfl⟩
theorem tgQuery : Statement .tgQuery := ⟨rfl, rfl⟩
theorem busComplete : Statement .busComplete := ⟨rfl, rfl⟩
theorem tgIrq : Statement .tgIrq := ⟨rfl, rfl⟩
theorem reset : Statement .reset := ⟨rfl, rfl⟩

end Sys2Proof.Laws.RequestAgent
end

