-- ==== Sys2Proof/Laws/Step.lean ====
section
/-! SUPPORT. What `fetch` and `step` can do, said once, and the induction over a run, packaged once. -/

namespace Sys2Proof.Machine

/-- Display's note changes nothing but the note. -/
theorem noteDraw_eq (i : Instr) (s : State) : noteDraw i s = s.setDrawHeld (drawRecord s i) := rfl

/-- Display notes nothing of an operation that is no submission and begins no draw. -/
theorem noteDraw_of_record {i : Instr} {s : State} (h : drawRecord s i = s.drawHeld) : noteDraw i s = s := by
  rw [noteDraw_eq, h, State.setDrawHeld_self]

/-- The note does not depend on the schedule. -/
theorem noteDraw_setInbox (i : Instr) (s : State) (q : List Request) :
    noteDraw i (s.setInbox q) = (noteDraw i s).setInbox q := by cases i <;> rfl

/-- What is noted of the draw is noted once. -/
theorem drawRecord_nodup {s : State} (i : Instr) (h : s.drawHeld.Nodup) : (drawRecord s i).Nodup := by
  cases i with
  | dpPoll => show (if s.ready then [] else s.drawHeld).Nodup; split; exacts [List.nodup_nil, h]
  | tgSubmitAccepted x => exact handOver_nodup x h
  | tgSubmitBlocked x =>
    show (if s.phase = .draw then keepPayload x s.drawHeld else s.drawHeld).Nodup
    split
    exacts [keepPayload_nodup x h, h]
  | _ => exact h

/-- What `fetch` found when it found an operation. -/
theorem fetch_run {s t : State} {i : Instr} (h : fetch s = .run i t) :
    s.params.valid = true ∧ ∃ r rest, s.inbox = r :: rest ∧ decode s.params (selection s) r = .ok i ∧
      i.wf s.params = true ∧ t = noteDraw i (s.setInbox rest) := by
  unfold fetch at h
  split at h
  · next hv =>
    refine ⟨hv, ?_⟩
    cases hq : s.inbox with
    | nil => rw [hq] at h; cases h
    | cons r rest =>
      rw [hq] at h
      cases hd : decode s.params (selection s) r with
      | error e => simp only [hd] at h; cases h
      | ok j =>
        simp only [hd] at h
        split at h
        · next hw => cases h; exact ⟨r, rest, rfl, hd, hw, rfl⟩
        · cases h
  · cases h

/-- `fetch` finds nothing only when no agent asks. -/
theorem fetch_idle {s : State} (h : fetch s = .idle) : s.params.valid = true ∧ s.inbox = [] := by
  unfold fetch at h
  split at h
  · next hv =>
    refine ⟨hv, ?_⟩
    cases hq : s.inbox with
    | nil => rfl
    | cons r rest =>
      rw [hq] at h
      cases hd : decode s.params (selection s) r with
      | error e => simp only [hd] at h; cases h
      | ok j =>
        simp only [hd] at h
        split at h <;> cases h
  · cases h

/-- A step that answers a state either idled or ran the operation that the next request decodes to. -/
theorem step_next {s t : State} (h : step s = .next t) :
    s.params.valid = true ∧ ((s.inbox = [] ∧ t = s) ∨
      ∃ i r rest, s.inbox = r :: rest ∧ decode s.params (selection s) r = .ok i ∧ i.wf s.params = true ∧
        exec i (noteDraw i (s.setInbox rest)) = .next t) := by
  unfold step at h
  cases hf : fetch s with
  | idle =>
    rw [hf] at h
    obtain ⟨hv, hq⟩ := fetch_idle hf
    cases h
    exact ⟨hv, .inl ⟨hq, rfl⟩⟩
  | run i u =>
    rw [hf] at h
    obtain ⟨hv, r, rest, hq, hd, hw, rfl⟩ := fetch_run hf
    exact ⟨hv, .inr ⟨i, r, rest, hq, hd, hw, h⟩⟩
  | stop r => rw [hf] at h; cases h

/-- The selection looks at the buffer and the gate, not at the schedule. -/
@[simp] theorem selection_setInbox (s : State) (q : List Request) :
    selection (s.setInbox q) = selection s := rfl

/-- A step on the next request is the step under any schedule that begins with it; what is still to come stays. -/
theorem step_setInbox {s t : State} {r : Request} {rest : List Request} (q : List Request)
    (h : step (s.setInbox (r :: rest)) = .next t) : step (s.setInbox (r :: q)) = .next (t.setInbox q) := by
  obtain ⟨hv, ⟨hnil, -⟩ | ⟨i, r', rest', hcons, hd, hw, hex⟩⟩ := step_next h
  · cases hnil
  · cases hcons
    have hv' : s.params.valid = true := hv
    have hd' : decode s.params (selection s) r = .ok i := hd
    have hw' : i.wf s.params = true := hw
    rw [noteDraw_setInbox] at hex
    have hrun : step (s.setInbox (r :: q)) = exec i ((noteDraw i s).setInbox q) := by
      have hd'' : decode (s.setInbox (r :: q)).params (selection (s.setInbox (r :: q))) r = .ok i := hd'
      have hf : fetch (s.setInbox (r :: q)) = .run i ((noteDraw i s).setInbox q) := by
        simp only [fetch, State.setInbox_params, State.setInbox_inbox, hv', if_true] at hd'' ⊢
        rw [hd'']
        simp only [hw', if_true]
        rfl
      simp only [step, hf]
    rw [hrun]
    have hagain := exec_setInbox q hex
    exact hagain

/-- What a run of no step answers. -/
@[simp] theorem run_zero (s : State) : run 0 s = .next s := rfl

/-- A run goes on from its first step. -/
theorem run_succ_of_step {s u : State} (n : Nat) (h : step s = .next u) :
    run (n + 1) s = run n u := by
  have hs : Sys2Proof.core.step s = .next u := h
  simp only [run, Host.Core.run, hs]
  rfl

/-- The first step of a run that answers a state. -/
theorem run_succ_next {s t : State} {n : Nat} (h : run (n + 1) s = .next t) :
    ∃ u, step s = .next u ∧ run n u = .next t := by
  cases hs : step s with
  | next u => exact ⟨u, rfl, by rw [← h, run_succ_of_step n hs]⟩
  | fault f =>
    have hs' : Sys2Proof.core.step s = .fault f := hs
    simp only [run, Host.Core.run, hs'] at h
    cases h
  | refused r =>
    have hs' : Sys2Proof.core.step s = .refused r := hs
    simp only [run, Host.Core.run, hs'] at h
    cases h

/-- Two runs, one after the other, are one run. -/
theorem run_append {m n : Nat} : ∀ {s u : State}, run m s = .next u →
    run (m + n) s = run n u := by
  induction m with
  | zero => intro s u h; cases h; simp
  | succ m ih =>
    intro s u h
    obtain ⟨v, hv, hrest⟩ := run_succ_next h
    rw [show m + 1 + n = m + n + 1 by omega, run_succ_of_step _ hv, ih hrest]

/-- What every step keeps, every run keeps. -/
theorem run_keeps {P : State → Prop} (hstep : ∀ s t, P s → step s = .next t → P t) :
    ∀ n s t, P s → run n s = .next t → P t := by
  intro n
  induction n with
  | zero => intro s t hs h; cases h; exact hs
  | succ n ih =>
    intro s t hs h
    obtain ⟨u, hu, hrest⟩ := run_succ_next h
    exact ih u t (hstep s u hs hu) hrest

/-- A run whose first requests all have a property, and whose steps on such requests keep `P`, keeps `P`. -/
theorem run_keeps_while {P : State → Prop} {Q : Request → Prop}
    (hidle : ∀ s, P s → s.inbox = [] → P s)
    (hstep : ∀ s t r rest, P s → s.inbox = r :: rest → Q r → step s = .next t → P t) :
    ∀ n s t, P s → (∀ r ∈ s.inbox.take n, Q r) → run n s = .next t → P t := by
  intro n
  induction n with
  | zero => intro s t hs _ h; cases h; exact hs
  | succ n ih =>
    intro s t hs hq h
    obtain ⟨u, hu, hrest⟩ := run_succ_next h
    obtain ⟨-, ⟨hnil, rfl⟩ | ⟨i, r, rest, hcons, hd, hw, hex⟩⟩ := step_next hu
    · exact ih _ t (hidle _ hs hnil) (by simp [hnil]) hrest
    · have hQ : Q r := hq r (by simp [hcons])
      refine ih u t (hstep s u r rest hs hcons hQ hu) ?_ hrest
      have hin : u.inbox = rest := by rw [exec_inbox hex]; rfl
      intro r' hr'
      rw [hin] at hr'
      exact hq r' (by rw [hcons, List.take_succ_cons]; exact List.mem_cons_of_mem _ hr')

@[simp] theorem feed_nil : feed [] = [] := rfl
@[simp] theorem feed_cons (b : Byte) (bs : List Byte) : feed (b :: bs) = .rx [b] :: feed bs := rfl
@[simp] theorem feed_append (bs cs : List Byte) : feed (bs ++ cs) = feed bs ++ feed cs :=
  List.map_append

end Sys2Proof.Machine
end

