-- ==== Sys2Proof/Laws/Pseudo.lean ====
section
/-! SUPPORT. What asking, asking in turn and repeating until a condition can do, said once each. -/

namespace Sys2Proof.Machine

/-- A request that was answered was answered by a step that met it at the head of the schedule. -/
theorem ask_eq_some {r : Request} {s t : State} : ask r s = some t ↔ step (askFirst s r) = .next t := by
  unfold ask
  cases step (askFirst s r) <;> simp

/-- Requests that were answered in turn: the first, then the rest. -/
theorem askAll_cons_eq_some {r : Request} {rest : List Request} {s t : State} :
    askAll (r :: rest) s = some t ↔ ∃ u, ask r s = some u ∧ askAll rest u = some t := by
  simp [askAll, Option.bind_eq_some_iff]

/-- Two lists of requests, one after the other, are one. -/
theorem askAll_append (q q' : List Request) (s : State) :
    askAll (q ++ q') s = (askAll q s).bind (askAll q') := by
  induction q generalizing s with
  | nil => rfl
  | cons r rest ih => cases h : ask r s <;> simp [askAll, h, ih]

/-- What every answered request of a list keeps, the list keeps. -/
theorem askAll_keeps {P : State → Prop} {q : List Request}
    (hask : ∀ r ∈ q, ∀ s t, P s → ask r s = some t → P t) {s t : State} (hs : P s)
    (h : askAll q s = some t) : P t := by
  induction q generalizing s with
  | nil => cases h; exact hs
  | cons r rest ih =>
    obtain ⟨u, hu, hrest⟩ := askAll_cons_eq_some.mp h
    exact ih (fun r' hr' => hask r' (List.mem_cons_of_mem _ hr')) (hask r (by simp) s u hs hu) hrest

/-- A repetition that ended: its last attempt met the condition, in a state that the earlier requests lead to. -/
theorem repeatUntil_eq_some {met : Returned → Bool} {r : Request} {waits : List (List Interruption)} {s : State}
    {k : Stretch} (h : repeatUntil met r waits s = some k) :
    ∃ q u, k.asked = q ++ [r] ∧ askAll q s = some u ∧ ask r u = some k.final ∧ answered met k.final = true := by
  induction waits generalizing s k with
  | nil =>
    obtain ⟨t, ht, h⟩ := Option.bind_eq_some_iff.mp h
    split at h
    · next hm => cases h; exact ⟨[], s, rfl, rfl, ht, hm⟩
    · cases h
  | cons w waits ih =>
    obtain ⟨t, ht, h⟩ := Option.bind_eq_some_iff.mp h
    split at h
    · next hm => cases h; exact ⟨[], s, rfl, rfl, ht, hm⟩
    · obtain ⟨u, hu, h⟩ := Option.bind_eq_some_iff.mp h
      obtain ⟨k', hk', rfl⟩ := Option.map_eq_some_iff.mp h
      obtain ⟨q, v, hq, hv, hlast, hm⟩ := ih hk'
      refine ⟨r :: w.map Interruption.request ++ q, v, by simp [hq], ?_, hlast, hm⟩
      rw [askAll_append, askAll_cons_eq_some.mpr ⟨t, ht, hu⟩]
      exact hv

end Sys2Proof.Machine
end

