-- ==== Sys2Proof/Tests/Slice0.lean ====
section
/-! SUPPORT. Tests: the expected results are the vectors of spec/95_test_vectors.md, or the rule named. Then the
witnesses: for each statement with hypotheses, states and operands that meet all of them together. -/

namespace Sys2Proof.Tests

open Sys2Proof.Machine

/-! ## Helpers -/

/-- `CAPACITY = 4`, the size the vectors use: 4 by 2 pixels of 4 bits; bus words of 8 bits. -/
def p4 : Params := { width := 4, height := 2, bpp := 4, sentinel := 0xFF, wordW := some 8 }

/-- `CAPACITY = 1` (V13): 2 by 1 pixels of 4 bits. -/
def p1 : Params := { width := 2, height := 1, bpp := 4, sentinel := 0xFF, wordW := none }

/-- A frame buffer `c=<cursor> r=<ready> [...]` of the vectors, the rest as after reset. -/
def buf (bytes : List Byte) (cursor : Nat) (ready : Bool) : State :=
  { State.resetWith p4 with storage := (List.range bytes.length).zip bytes, cursor := cursor, ready := ready }

/-- `c=2 r=0 [10 20 ? ?]`. -/
def fill2 : State := buf [0x10, 0x20] 2 false
/-- `c=3 r=0 [10 20 30 ?]`. -/
def fill3 : State := buf [0x10, 0x20, 0x30] 3 false
/-- `c=4 r=1 [10 20 30 40]`. -/
def full : State := buf [0x10, 0x20, 0x30, 0x40] 4 true
/-- The same, in phase DRAW. -/
def drawing : State := full.setPhase .draw
/-- The same, in phase DONE. -/
def drawn : State := full.setPhase .done

/-- A gate state `(busy, armed, bus_active)` of the vectors, the rest as after reset. -/
def gate (busy armed busActive : Bool) : State :=
  { State.resetWith p4 with busy := busy, armed := armed, busActive := busActive }

/-- The state an operation answers, if it answers one. -/
def after (r : Result) : Option State :=
  match r with
  | .next t => some t
  | .fault _ => none
  | .refused _ => none

/-- The refusal an operation answers, if it is refused. -/
def refusal (r : Result) : Option Refusal :=
  match r with
  | .next _ => none
  | .fault _ => none
  | .refused e => some e

/-- What a decoder answered, if it answered an operation. -/
def decoded (r : Except DecodeError Instr) : Option Instr :=
  match r with
  | .ok i => some i
  | .error _ => none

/-- While the receiver owns the buffer and the gate is idle. -/
def openIdle : Selection := { closed := false, busy := false, stalled := false }
/-- While the consumer owns the buffer, the gate is Busy and a submission of the draw is stalled. -/
def closedBusy : Selection := { closed := true, busy := true, stalled := true }

/-! ## Well-formedness: each check refuses an ill-formed term -/

theorem test_wf_rxData_sentinel_refused : (Instr.rxData 0xFF).wf p4 = false := by decide
theorem test_wf_rxData_data : (Instr.rxData 0xFE).wf p4 = true := by decide
theorem test_wf_rxSentinel_data_refused : (Instr.rxSentinel 0x00).wf p4 = false := by decide
theorem test_wf_submit_too_wide_refused :
    (Instr.tgSubmitAccepted 0x100).wf p4 = false ∧ (Instr.tgSubmitBlocked 0x100).wf p4 = false := by decide
theorem test_wf_submit_open_width : (Instr.tgSubmitAccepted 0x100).wf p1 = true := by decide
theorem test_configuration_refused :
    refusal (step { State.reset with params := { Params.default with bpp := 3, width := 1, height := 1 } })
      = some .badConfiguration := by decide
theorem test_step_wide_payload_refused :
    refusal (step ((gate false false false).setInbox [.tgSubmit 0x100])) = some .illFormed := by decide
theorem test_step_two_bytes_refused :
    refusal (step (State.reset.setInbox [.rx [0x10, 0x20]])) = some .twoBytesInOneActivation := by decide

/-! ## Decoding: V-E1 to V-E16, and the requests of R70 by name -/

/-- V-E1 to V-E15: the data bytes at both ends of each row of R65. -/
theorem test_decode_data_bytes :
    [0b00000000, 0b01111111, 0b10000000, 0b10111111, 0b11000000, 0b11011111, 0b11100000, 0b11101111,
      0b11110000, 0b11110111, 0b11111000, 0b11111011, 0b11111100, 0b11111101, 0b11111110].map
        (fun w => decodeTableWord 8 w)
      = [some (.rxData 0x00), some (.rxData 0x7F), some (.rxData 0x80), some (.rxData 0xBF),
        some (.rxData 0xC0), some (.rxData 0xDF), some (.rxData 0xE0), some (.rxData 0xEF),
        some (.rxData 0xF0), some (.rxData 0xF7), some (.rxData 0xF8), some (.rxData 0xFB),
        some (.rxData 0xFC), some (.rxData 0xFD), some (.rxData 0xFE)] := by decide

/-- V-E16. -/
theorem test_decode_sentinel_byte : decodeTableWord 8 0b11111111 = some (.rxSentinel 0xFF) := by decide

/-- R77: a closed buffer drops data and sentinel alike; two bytes are no unit (R56, R11). -/
theorem test_decode_closed_and_long :
    decoded (decode p4 closedBusy (.rx [0x55])) = some (.rxDrop 0x55) ∧
    decoded (decode p4 closedBusy (.rx [0xFF])) = some (.rxDrop 0xFF) ∧
    decoded (decode p4 closedBusy .drawDone) = none ∧
    decodeTableWord 16 0x1020 = none := by decide

/-- R58, R70: the operations without a bit encoding, by name, each operand kept. -/
theorem test_decode_named_requests :
    decoded (decode p4 openIdle (.rx [])) = some .rxNone ∧
    decoded (decode p4 openIdle .dpPoll) = some .dpPoll ∧
    decoded (decode p4 openIdle (.fbRead 3)) = some (.fbRead 3) ∧
    decoded (decode p4 openIdle .drawDone) = some .drawDone ∧
    decoded (decode p4 openIdle .dpRelease) = some .dpRelease ∧
    decoded (decode p4 openIdle (.tgSubmit 0xA5)) = some (.tgSubmitAccepted 0xA5) ∧
    decoded (decode p4 closedBusy (.tgSubmit 0x3C)) = some (.tgSubmitBlocked 0x3C) ∧
    decoded (decode p4 openIdle .tgQuery) = some .tgQuery ∧
    decoded (decode p4 openIdle .busComplete) = some .busComplete ∧
    decoded (decode p4 openIdle .tgIrq) = some .tgIrq ∧
    decoded (decode p4 openIdle .powerUp) = some .reset := by decide

/-- R8, R63: the default frame length, cursor width and sentinel. -/
theorem test_default_parameters :
    Params.default.capacity = 6144 ∧ Params.default.cursorW = 13 ∧ p4.capacity = 4 ∧ p1.capacity = 1 ∧
      p4.cursorW = 3 ∧ p1.cursorW = 1 := by decide

/-! ## Operations -/

/-- V4: the last slot, `ready` set in the same step. -/
theorem test_rxData_last_slot :
    after (exec (.rxData 0x40) fill3) = some full := by decide
/-- V17: at the default size 6143 + 1 = 6144 does not wrap. -/
theorem test_rxData_default_last_slot :
    (after (exec (.rxData 0x01) { State.reset with cursor := 6143 })).map
      (fun t => (t.cursor, t.ready, t.storage)) = some (6144, true, [(6143, 0x01)]) := by decide
/-- V7: the sentinel is stored at `k`, the old bytes stay. -/
theorem test_rxSentinel_mid_frame :
    after (exec (.rxSentinel 0xFF) fill2) = some (buf [0x10, 0x20, 0xFF] 0 false) := by decide
/-- V8: the sentinel in the last slot sets no `ready`. -/
theorem test_rxSentinel_last_slot :
    after (exec (.rxSentinel 0xFF) fill3) = some (buf [0x10, 0x20, 0x30, 0xFF] 0 false) := by decide
/-- V15: a sentinel while `ready = 1` is dropped; V11, V12: each half of the guard alone drops. -/
theorem test_rxDrop_guards :
    after (exec (.rxDrop 0xFF) full) = some full ∧
    after (exec (.rxDrop 0x55) (full.setReady false)) = some (full.setReady false) ∧
    after (exec (.rxDrop 0x55) (buf [0x10] 1 true)) = some (buf [0x10] 1 true) := by decide
/-- R80, R82, R84: an outcome that R77 does not select has no step. -/
theorem test_rx_not_selected :
    refusal (exec (.rxData 0x55) full) = some .bufferClosed ∧
    refusal (exec (.rxSentinel 0xFF) full) = some .bufferClosed ∧
    refusal (exec (.rxDrop 0x55) fill2) = some .bufferOpen ∧
    refusal (exec (.rxData 0xFF) fill2) = some .byteIsSentinel ∧
    refusal (exec (.rxSentinel 0x55) fill2) = some .byteIsData := by decide
/-- V9, V10. -/
theorem test_rxNone : after (exec .rxNone fill2) = some fill2 ∧ after (exec .rxNone full) = some full := by
  decide
/-- V18: the poll of an unfinished frame returns 0 and changes nothing. -/
theorem test_dpPoll_zero : after (exec .dpPoll fill2) = some (fill2.setReturned (.bit false)) := by decide
/-- V19, V20: the poll hands the frame over, once. -/
theorem test_dpPoll_one :
    after (exec .dpPoll full)
      = some ((drawing.addEmitted (.drawStart [(0, 0x10), (1, 0x20), (2, 0x30), (3, 0x40)] 0 0 4 2)).setReturned
        (.bit true)) ∧
    refusal (exec .dpPoll drawing) = some .pumpNotPolling := by decide
/-- V21: the last legal offset. -/
theorem test_fbRead_last : after (exec (.fbRead 3) drawing) = some (drawing.setReturned (.byte 0x40)) := by decide
/-- V22, V23. -/
theorem test_fbRead_refused :
    refusal (exec (.fbRead 4) drawing) = some .readOutOfRange ∧
    refusal (exec (.fbRead 0) fill2) = some .readOutsideDraw ∧
    refusal (exec (.fbRead 0) drawn) = some .readOutsideDraw ∧
    refusal (exec (.fbRead 0) (fill2.setPhase .draw)) = some .readNotOwned := by decide
/-- V24: the draw may end with the last transfer outstanding; V25. -/
theorem test_drawDone :
    after (exec .drawDone ((drawing.setBusy true).setBusActive true))
      = some ((drawn.setBusy true).setBusActive true) ∧
    refusal (exec .drawDone full) = some .pumpNotDrawing := by decide
/-- P6, steps 7 and 8: a submission of this draw stalls, and Display withholds its return; V24: with the one
accepted and outstanding it returns. -/
theorem test_step_stalled_drawDone_refused :
    refusal (run 3 (drawing.setInbox [.tgSubmit 0xA5, .tgSubmit 0x3C, .drawDone])) = some .displayStalled ∧
    (after (run 2 (drawing.setInbox [.tgSubmit 0xA5, .drawDone]))).map (fun t => (t.phase, gateState t))
      = some (.done, (true, false, true)) := by decide
/-- R99, D13: a payload that stalled before the draw does not hold Display's return; submitted again in the draw, it
does until it is accepted. -/
theorem test_step_drawDone_stalled_outside_draw :
    (after (run 4 (full.setInbox [.tgSubmit 0xA5, .tgSubmit 0x3C, .dpPoll, .drawDone]))).map
      (fun t => (t.phase, t.held, t.drawHeld)) = some (.done, [0x3C], []) ∧
    (after (run 4 (full.setInbox [.tgSubmit 0xA5, .tgSubmit 0x3C, .dpPoll, .tgSubmit 0x3C]))).map
      (fun t => (t.phase, t.held, t.drawHeld)) = some (.draw, [0x3C], [0x3C]) := by decide
/-- V26: both fields in one step, the storage not cleared; V27. -/
theorem test_dpRelease :
    after (exec .dpRelease drawn) = some (buf [0x10, 0x20, 0x30, 0x40] 0 false) ∧
    refusal (exec .dpRelease drawing) = some .drawNotDone := by decide
/-- V29; V30: a stale arming survives the submission. -/
theorem test_tgSubmit_accepted :
    (after (exec (.tgSubmitAccepted 0xA5) (gate false false false))).map (fun t => (gateState t, t.emitted))
      = some ((true, false, true), [.busStart 0xA5]) ∧
    (after (exec (.tgSubmitAccepted 0xA5) (gate false true false))).map gateState = some (true, true, true) := by
  decide
/-- V31: the wait arms, nothing is put out, the payload is kept; R108 (a): once. -/
theorem test_tgSubmit_blocked :
    after (exec (.tgSubmitBlocked 0x3C) (gate true false true))
      = some (((gate true true true).setHeld [0x3C]).setReturned .stalled) ∧
    after (exec (.tgSubmitBlocked 0x3C) ((gate true true true).setHeld [0x3C]))
      = some (((gate true true true).setHeld [0x3C]).setReturned .stalled) := by decide
/-- R107, R108: the outcome that the gate does not select has no step. -/
theorem test_tgSubmit_not_selected :
    refusal (exec (.tgSubmitAccepted 0x3C) (gate true false true)) = some .gateBusy ∧
    refusal (exec (.tgSubmitBlocked 0x3C) (gate false false false)) = some .gateIdle := by decide
/-- P4, steps 2 to 6: SUBMIT_BLOCKING waits for the completion interrupt; it never ends without the bus. -/
theorem test_submitBlocking :
    ((submitBlocking 0x3C [[], [.busComplete, .tgIrq], []] (gate true false true)).map
        fun k => (k.asked, k.final.emitted, k.final.held))
      = some ([.tgSubmit 0x3C, .tgSubmit 0x3C, .busComplete, .tgIrq, .tgSubmit 0x3C], [.busStart 0x3C], []) ∧
    submitBlocking 0x3C [[.rx (some 0x10)], []] (gate true false true) = none := by decide
/-- P4, steps 7 to 11: WAIT_IDLE. -/
theorem test_waitIdle :
    (waitIdle [[.busComplete], [.tgIrq]] (gate true false true)).map (fun k => (k.asked, gateState k.final))
      = some ([.tgQuery, .busComplete, .tgQuery, .tgIrq, .tgQuery], (false, true, false)) := by decide
/-- P5 in small: the frame completes between two polls, and is drawn through the gate and released. -/
theorem test_pumpIteration :
    (pumpIteration [[.rx (some 0x40)]] [.read 0, .submit 1, .other (.rx (some 0xFF)), .submit 2, .other .busComplete,
        .other .tgIrq, .submit 2] [] fill3).map (fun k => (k.asked.length, k.final.phase, k.final.ready, k.final.busy))
      = some (12, .poll, false, true) := by decide
/-- V33, V35: the flag as it was, and the arming. -/
theorem test_tgQuery :
    after (exec .tgQuery (gate false false false)) = some ((gate false true false).setReturned (.bit false)) ∧
    after (exec .tgQuery (gate true false false)) = some ((gate true true false).setReturned (.bit true)) := by
  decide
/-- V36: `busy` is not cleared by the bus; V37. -/
theorem test_busComplete :
    after (exec .busComplete (gate true false true)) = some (gate true false false) ∧
    refusal (exec .busComplete (gate true true false)) = some .noTransferOutstanding := by decide
/-- V38, V39: one-shot; V40. -/
theorem test_tgIrq :
    after (exec .tgIrq (gate true true false)) = some (gate false false false) ∧
    after (exec .tgIrq (gate false true false)) = some (gate false false false) ∧
    refusal (exec .tgIrq (gate true true true)) = some .completionNotPending ∧
    refusal (exec .tgIrq (gate true false false)) = some .completionNotPending := by decide
/-- V43: every element to its rest value, the storage unspecified. -/
theorem test_reset :
    after (exec .reset (((drawing.setBusy true).setArmed true).setBusActive true))
      = some (State.resetWith p4) := by decide
/-- V13, V13b: `CAPACITY = 1`. -/
theorem test_capacity_one :
    (after (exec (.rxData 0x42) (State.resetWith p1))).map (fun t => (t.cursor, t.ready)) = some (1, true) ∧
    (after (exec (.rxSentinel 0xFF) (State.resetWith p1))).map (fun t => (t.cursor, t.ready))
      = some (0, false) := by decide
/-- V45, and the host's view of it: a table word is the next byte delivered. -/
theorem test_step_after_reset_data :
    (after (step (State.reset.withFetchWord 8 0x12))).map (fun t => (t.cursor, t.ready, t.storage))
      = some (1, false, [(0, 0x12)]) := by decide
/-- R82 at reset. -/
theorem test_step_after_reset_sentinel :
    (after (step (State.reset.withFetchWord 8 0xFF))).map (fun t => (t.cursor, t.ready, t.storage))
      = some (0, false, [(0, 0xFF)]) := by decide

/-! ## Witnesses: the hypotheses of each statement, met together -/

/-- The invariant holds of a buffer whose listed bytes fill it up to the cursor. -/
theorem inv_fill2 : Inv fill2 where
  validParams := by decide
  storageWf := by decide
  storageInRange a ha := by
    have h4 : 4 ≤ a := ha
    have h0 : a ≠ 0 := by omega
    have h1 : a ≠ 1 := by omega
    simp [byteAt, fill2, buf, List.range, List.range.loop, Memory.read, h0, h1]
  cursorLe := by decide
  readyCursor := by decide
  cursorReady := by decide
  frameData k hk := by
    have h2 : k < 2 := hk
    interval_cases k
    · exact ⟨0x10, by decide, by decide⟩
    · exact ⟨0x20, by decide, by decide⟩
  drawOwned := by decide
  busBusy := by decide
  heldNodup := by decide
  drawHeldNodup := by decide
  drawHeldKept := by decide
  drawHeldInDraw := by decide

theorem inv_drawing : Inv drawing where
  validParams := by decide
  storageWf := by decide
  storageInRange a ha := by
    have h4 : 4 ≤ a := ha
    have h0 : a ≠ 0 := by omega
    have h1 : a ≠ 1 := by omega
    have h2 : a ≠ 2 := by omega
    have h3 : a ≠ 3 := by omega
    simp [byteAt, drawing, full, buf, List.range, List.range.loop, Memory.read, h0, h1, h2, h3]
  cursorLe := by decide
  readyCursor := by decide
  cursorReady := by decide
  frameData k hk := by
    have h4 : k < 4 := hk
    interval_cases k
    · exact ⟨0x10, by decide, by decide⟩
    · exact ⟨0x20, by decide, by decide⟩
    · exact ⟨0x30, by decide, by decide⟩
    · exact ⟨0x40, by decide, by decide⟩
  drawOwned := by decide
  busBusy := by decide
  heldNodup := by decide
  drawHeldNodup := by decide
  drawHeldKept := by decide
  drawHeldInDraw := by decide

/-- The schedule of a state is whatever a witness needs. -/
def asked (s : State) (q : List Request) : State := s.setInbox q

/-- A frame of `p4`, and a schedule that sends it. -/
def frame4 : List Byte := [0x61, 0x62, 0x63, 0x64]

theorem witness_RxDataStoresAndAdvances_first_and_last_offset :
    ((buf [] 0 false).ready = false ∧ (buf [] 0 false).cursor < (buf [] 0 false).capacity ∧
      (0x00 : Byte) ≠ (buf [] 0 false).params.sentinel) ∧
    (fill3.ready = false ∧ fill3.cursor < fill3.capacity ∧ (0xFE : Byte) ≠ fill3.params.sentinel) := by decide
theorem witness_RxSentinelRestartsFrame :
    fill2.ready = false ∧ fill2.cursor < fill2.capacity ∧ (0xFF : Byte) = fill2.params.sentinel := by decide
theorem witness_SentinelInLastSlotCompletesNoFrame :
    fill3.ready = false ∧ fill3.cursor + 1 = fill3.capacity := by decide
theorem witness_RxDropChangesNothing_each_half :
    ((buf [0x10] 1 true).ready = true) ∧ ((full.setReady false).cursor = (full.setReady false).capacity) := by
  decide
theorem witness_DeliveredByteDispatch_each_case :
    (p4.valid = true ∧ fill2.cursor ≤ fill2.capacity ∧ (asked fill2 [.rx []]).inbox = .rx [] :: []) ∧
    ((asked full [.rx [0x55]]).inbox = .rx [0x55] :: [] ∧ full.ready = true) ∧
    ((asked fill3 [.rx [0xFF]]).inbox = .rx [0xFF] :: [] ∧ fill3.ready = false ∧
      fill3.cursor ≠ fill3.capacity ∧ (0xFF : Byte) = p4.sentinel) ∧
    ((asked fill3 [.rx [0x00]]).inbox = .rx [0x00] :: [] ∧ (0x00 : Byte) ≠ p4.sentinel) := by decide
theorem witness_EveryDeliveredByteCompletes :
    (asked full [.rx [0xFF]]).params.valid = true ∧ [(0xFF : Byte)].length ≤ 1 ∧
      (asked full [.rx [0xFF]]).inbox = .rx [0xFF] :: [] := by decide
theorem witness_CursorNeverWraps : 6143 < Params.default.capacity ∧ Params.default.capacity < 2 ^ 13 := by decide
theorem witness_DpPollReturnsReadiness_each_case :
    (fill2.phase = .poll ∧ fill2.ready = false) ∧ (full.phase = .poll ∧ full.ready = true) ∧
      drawing.phase ≠ .poll := by decide
theorem witness_FbReadReturnsStoredByte_each_case :
    (drawing.phase = .draw ∧ drawing.ready = true ∧ 3 < drawing.capacity ∧ byteAt drawing 3 = some 0x40) ∧
      drawn.phase ≠ .draw ∧ fill2.ready = false ∧ drawing.capacity ≤ 4 ∧ byteAt fill2 2 = none := by decide
theorem witness_FbReadCompletesDuringDraw : Inv drawing ∧ drawing.phase = .draw ∧ 3 < drawing.capacity :=
  ⟨inv_drawing, by decide, by decide⟩
theorem witness_DrawDoneEndsDraw_each_case :
    drawing.phase = .draw ∧ full.phase ≠ .draw ∧ (asked drawing [.drawDone]).params.valid = true ∧
      (asked drawing [.drawDone]).inbox = .drawDone :: [] ∧ drawing.drawHeld = [] ∧
      ((asked drawing [.drawDone]).setHeld [0x3C]).drawHeld = [] ∧
      ((asked drawing [.drawDone]).setDrawHeld [0x3C]).drawHeld ≠ [] := by decide
theorem witness_DpReleaseReturnsBuffer_each_case : drawn.phase = .done ∧ drawing.phase ≠ .done := by decide
theorem witness_TgSubmit_idle_and_busy :
    (gate false false false).busy = false ∧ (gate true false true).busy = true := by decide
theorem witness_StalledPayloadsAreKept_each_case :
    ((gate true true true).setHeld [0x3C]).held.Nodup ∧
      (after (exec (.tgSubmitBlocked 1) ((gate true true true).setHeld [0x3C]))).map (fun t => t.held)
        = some [0x3C, 1] ∧
      (after (exec (.tgSubmitAccepted 0x3C) ((gate false true false).setHeld [0x3C, 1]))).map (fun t => t.held)
        = some [1] ∧
      (after (exec .reset ((gate true true true).setHeld [0x3C]))).map (fun t => t.held) = some [] ∧
      (after (exec .tgQuery ((gate true true true).setHeld [0x3C]))).map (fun t => t.held) = some [0x3C] := by decide
theorem witness_BusCompleteLowersLevel_each_case :
    (gate true false true).busActive = true ∧ (gate true false false).busActive = false := by decide
theorem witness_TgIrqClearsBusyAndArmed_each_case :
    ((gate true true false).armed = true ∧ (gate true true false).busActive = false) ∧
      (gate true false false).armed = false ∧ (gate true true true).busActive = true := by decide
theorem witness_QueryAndReadAreIdempotent :
    (after (exec .tgQuery (gate true false true))).isSome = true ∧
      (after (exec .tgQuery ((gate true true true).setReturned (.bit true)))).isSome = true ∧
      (after (exec (.fbRead 0) drawing)).isSome = true := by decide
theorem witness_ResetStateValues_unwritten_byte : byteAt State.reset 0 = none ∧ byteAt fill2 2 = none := by decide
theorem witness_FirstByteAfterResetIsAccepted : (0x12 : Byte) ≠ 0xFF := by decide
theorem witness_WireMapPartitionsBytes : ∃ r ∈ wireTable, rowMatches 0xFF r = true := by decide
theorem witness_DecodeOfEncode_each_selection :
    ((Instr.rxData 0xFE).wf p4 = true ∧ (Instr.rxData 0xFE).selectedBy openIdle = true) ∧
    ((Instr.rxDrop 0xFF).wf p4 = true ∧ (Instr.rxDrop 0xFF).selectedBy closedBusy = true) ∧
    ((Instr.tgSubmitBlocked 0xFF).wf p4 = true ∧ (Instr.tgSubmitBlocked 0xFF).selectedBy closedBusy = true) := by
  decide
theorem witness_EncodeOfDecode : decode p4 openIdle (.rx [0xFF]) = .ok (.rxSentinel 0xFF) := rfl
theorem witness_StepRunsDecodedRequest :
    (asked fill2 [.rx [0x30]]).params.valid = true ∧ (asked fill2 [.rx [0x30]]).inbox = .rx [0x30] :: [] ∧
      decoded (decode p4 (selection (asked fill2 [.rx [0x30]])) (.rx [0x30])) = some (.rxData 0x30) ∧
      (Instr.rxData 0x30).wf p4 = true := by decide
theorem witness_StepIdlesOrRefusesConfiguration_each_case :
    (State.reset.params.valid = true ∧ State.reset.inbox = []) ∧ ({ p4 with bpp := 3, height := 1 } : Params).valid = false := by
  decide
theorem witness_StepsExactlyWhenEnabled_each_case :
    full.cursor ≤ full.capacity ∧ Enabled full (.rxDrop 0x55) ∧ ¬ Enabled full .drawDone :=
  ⟨by decide, .inl rfl, fun h => nomatch h⟩
theorem witness_ParametersNeverChange :
    (after (step (asked fill2 [.rx [0x30]]))).isSome = true ∧ p4.valid = true := by decide
theorem witness_StorageWrittenOnlyByReceiver :
    (after (exec (.rxData 0x30) fill2)).map (fun t => decide (t.storage ≠ fill2.storage)) = some true ∧
      Instr.rxData 0x30 ≠ .reset := by decide
theorem witness_CursorWrittenOnlyAsListed_each_case :
    (after (exec (.rxData 0x30) fill2)).isSome = true ∧ (after (exec (.rxSentinel 0xFF) fill2)).isSome = true ∧
      (after (exec .dpRelease drawn)).isSome = true ∧ (after (exec .tgQuery fill2)).isSome = true := by decide
theorem witness_ReadyWrittenOnlyAsListed_each_case :
    (fill3.ready = false ∧ (after (exec (.rxData 0x40) fill3)).map (fun t => t.ready) = some true) ∧
      drawn.ready = true ∧ (after (exec .dpRelease drawn)).map (fun t => t.ready) = some false := by decide
theorem witness_GateFlagsWrittenOnlyAsListed_each_case :
    (after (exec (.tgSubmitAccepted 1) (gate false false false))).map gateState = some (true, false, true) ∧
    (after (exec .tgIrq (gate true true false))).map gateState = some (false, false, false) ∧
    (after (exec .tgQuery (gate false false false))).map gateState = some (false, true, false) ∧
    (after (exec .busComplete (gate true false true))).map gateState = some (true, false, false) := by decide
theorem witness_ContextsKeepToTheirFields_each_context :
    ((Instr.rxDrop 0).context = .interrupt ∧ (after (exec (.rxDrop 0) full)).isSome = true ∧ full.ready = true) ∧
    (Instr.dpRelease.context = .mainLoop ∧
      (after (exec .dpRelease drawn)).map (fun t => decide (t.cursor ≠ drawn.cursor ∧ t.ready ≠ drawn.ready))
        = some true) := by decide
theorem witness_ActivationLeavesInterruptedAgentAlone :
    Instr.tgIrq.context = .interrupt ∧ (after (exec .tgIrq (gate true true false))).isSome = true := by decide
theorem witness_ReceiverFollowsItsTable :
    Inv fill2 ∧ (after (exec (.rxData 0x30) fill2)).isSome = true := ⟨inv_fill2, by decide⟩
theorem witness_PumpFollowsItsTable_each_case :
    ((after (exec .dpPoll full)).isSome = true ∧ pumpTable full.ready .dpPoll full.phase = some .draw) ∧
      (pumpTable full.ready .dpRelease full.phase = none ∧ Instr.dpRelease.asksPhase = true) ∧
      (pumpTable full.ready .tgQuery full.phase = none ∧ Instr.tgQuery.asksPhase = false ∧
        (after (exec .tgQuery full)).isSome = true) := by decide
theorem witness_GateFollowsItsTable :
    (gate true true false).busActive = false ∧ (after (exec .tgIrq (gate true true false))).isSome = true ∧
      Instr.tgIrq.isGateOp = true ∧
      gateTable .tgIrq (gateState (gate true true false)) = some (false, false, false) := by decide
theorem witness_StepKeepsInvariant : Inv fill2 ∧ ∃ t, step fill2 = .next t := ⟨inv_fill2, fill2, rfl⟩
theorem witness_GateInvariantAndOneTransfer :
    (gate false false false).busActive = false ∧
    (after (step (asked (gate false false false) [.tgSubmit 1]))).map (fun t => t.emitted)
      = some ([] ++ [.busStart 1]) ∧
    ((gate true false true).busActive = true → (gate true false true).busy = true) ∧
    (gate true false true).busActive = true := by decide
theorem witness_NoByteStreamWritesOutOfRange :
    (asked full (feed [0x51, 0xFF])).params.valid = true ∧
      (asked full (feed [0x51, 0xFF])).inbox = feed [0x51, 0xFF] ++ [] ∧ full.capacity ≤ 4 := by decide
theorem witness_DataBytesAreStoredInArrivalOrder :
    (asked (buf [] 0 false) (feed frame4)).params.valid = true ∧ (buf [] 0 false).ready = false ∧
      (buf [] 0 false).cursor = 0 ∧ frame4.length ≤ (buf [] 0 false).capacity ∧
      (∀ b ∈ frame4, b ≠ p4.sentinel) ∧
      (asked (buf [] 0 false) (feed frame4)).inbox = feed frame4 ++ [] := by decide
theorem witness_SentinelThenFrameCompletes_each_case :
    (asked fill3 (feed (0xFF :: frame4))).params.valid = true ∧ frame4.length = fill3.capacity ∧
      (∀ b ∈ frame4, b ≠ p4.sentinel) ∧
      (asked fill3 (feed (0xFF :: frame4))).inbox = feed (fill3.params.sentinel :: frame4) ++ [] ∧
      (fill3.ready = false ∧ fill3.cursor < fill3.capacity) ∧ full.ready = true := by decide
theorem witness_ResyncDiscardsPartialFrame :
    (asked fill3 (feed (0xFF :: ([0x10, 0x20] ++ 0xFF :: frame4)))).params.valid = true ∧
      fill3.ready = false ∧ fill3.cursor < fill3.capacity ∧ [(0x10 : Byte), 0x20].length < fill3.capacity ∧
      frame4.length = fill3.capacity ∧ (∀ b ∈ [0x10, 0x20] ++ frame4, b ≠ p4.sentinel) := by decide
theorem witness_SentinelResetsLogicalWriteOffset_each_case :
    ((asked fill2 [.rx [0xFF]]).params.valid = true ∧ fill2.cursor ≤ fill2.capacity ∧
      (fill2.cursor = fill2.capacity → fill2.ready = true) ∧
      (asked fill2 [.rx [0xFF]]).inbox = .rx [fill2.params.sentinel] :: [] ∧ fill2.ready = false) ∧
    (full.cursor = full.capacity ∧ full.ready = true) := by decide
theorem witness_BytesAreDroppedWhileConsumerOwns :
    (asked full (feed [0x51, 0xFF])).params.valid = true ∧ full.ready = true ∧
      (asked full (feed [0x51, 0xFF])).inbox = feed [0x51, 0xFF] ++ [] := by decide
theorem witness_NoTearingUntilRelease :
    drawing.ready = true ∧
    (∀ r ∈ (asked drawing [.rx [0x99], .fbRead 1]).inbox.take 2, r ≠ .dpRelease ∧ r ≠ .powerUp) ∧
    (after (run 2 (asked drawing [.rx [0x99], .fbRead 1]))).map (fun t => t.returned)
      = some (some (.byte 0x20)) ∧
    (after (exec (.fbRead 3) drawing)).isSome = true ∧
    (after (exec (.rxData 0x30) fill2)).map (fun t => decide (t.storage ≠ fill2.storage)) = some true := by decide
theorem witness_FrameIsReceivedDrawnAndReleased :
    let s := asked fill3 (feed (0xFF :: frame4) ++ .dpPoll :: drawAndRelease (reads [0, 3]) [] ++ [])
    s.params.valid = true ∧ s.ready = false ∧ s.cursor < s.capacity ∧ s.phase = .poll ∧
      frame4.length = s.capacity ∧ (∀ b ∈ frame4, b ≠ s.params.sentinel) ∧ (∀ off ∈ [0, 3], off < s.capacity) ∧
      s.inbox = feed (s.params.sentinel :: frame4) ++ .dpPoll :: drawAndRelease (reads [0, 3]) [] ++ [] := by decide
theorem witness_BlockedSubmitProceedsAfterCompletion :
    (gate true false true).busy = true ∧ (gate true false true).busActive = true ∧
      (gate true false true).params.valid = true ∧ (gate true false true).params.fitsWord 0x3C = true := by decide
theorem witness_OneArmingPerTransferIsEnough :
    (after (exec (.tgSubmitAccepted 0xA5) (gate false false false))).isSome = true := by decide
theorem witness_UnarmedGateStaysBusy :
    let s := asked (gate true false true) [.busComplete, .rx [0x10]]
    s.busy = true ∧ s.armed = false ∧
      (∀ r ∈ s.inbox.take 2, r ≠ .tgQuery ∧ r ≠ .powerUp ∧ ∀ x, r ≠ .tgSubmit x) ∧
      (after (run 2 s)).isSome = true :=
  ⟨by decide, by decide, by simp [asked], by decide⟩
theorem witness_StalledBusHoldsGateBusy :
    let s := asked (gate true false true) [.tgQuery, .tgSubmit 0x3C]
    s.busy = true ∧ s.busActive = true ∧ (∀ r ∈ s.inbox.take 1, r ≠ .busComplete ∧ r ≠ .powerUp) ∧
      (after (run 1 s)).map (fun t => (t.params.valid, t.params.fitsWord 0x3C, t.inbox))
        = some (true, true, [.tgSubmit 0x3C]) := by decide
theorem witness_StalledBusHoldsGateBusy_stalled_draw :
    let s := asked ((((drawing.setBusy true).setBusActive true).setHeld [0x3C]).setDrawHeld [0x3C]) [.rx [0x51]]
    s.busy = true ∧ s.busActive = true ∧ (∀ r ∈ s.inbox.take 1, r ≠ .busComplete ∧ r ≠ .powerUp) ∧
      (after (run 1 s)).isSome = true ∧ s.drawHeld ≠ [] ∧ s.phase = .draw ∧ s.ready = true ∧
      (∀ w ∈ [[Interruption.tgIrq]], Interruption.busComplete ∉ w) := by decide
theorem witness_DrawSubmissionsAreNoted_each_case :
    let stalled := (drawing.setBusy true).setDrawHeld [0x3C]
    stalled.drawHeld.Nodup ∧
    (after (step (asked stalled [.tgSubmit 1]))).map (fun t => t.drawHeld) = some [0x3C, 1] ∧
    (after (step (asked (stalled.setBusy false) [.tgSubmit 0x3C]))).map (fun t => t.drawHeld) = some [] ∧
    (after (step (asked (full.setBusy true) [.tgSubmit 1]))).map (fun t => t.drawHeld) = some [] ∧
    (after (step (asked full [.dpPoll]))).map (fun t => (t.phase, t.drawHeld)) = some (.draw, []) ∧
    (after (step (asked fill2 [.dpPoll]))).map (fun t => (t.phase, t.drawHeld)) = some (.poll, []) ∧
    (after (step (asked stalled [.powerUp]))).map (fun t => t.drawHeld) = some [] ∧
    (after (step (asked stalled [.tgQuery]))).map (fun t => t.drawHeld) = some [0x3C] := by decide
theorem witness_PseudoOperations_each_end :
    (submitBlocking 0x3C [[.busComplete, .tgIrq]] (gate true false true)).isSome = true ∧
      (waitIdle [[.busComplete], [.tgIrq]] (gate true false true)).isSome = true ∧
      (pumpIteration [[.rx (some 0x40)]] [.read 3] [] fill3).isSome = true := by decide
theorem witness_FrameAndGateOperationsCommute_each_order :
    ((Instr.rxData 0x30).isFrameOp = true ∧ Instr.tgQuery.isGateOp = true) ∧
      (after (exec (.rxData 0x30) fill2)).bind (fun t => after (exec .tgQuery t)) ≠ none ∧
      (after (exec .tgQuery fill2)).bind (fun t => after (exec (.rxData 0x30) t)) ≠ none := by decide
theorem witness_OrderMattersWhereListed_each_pair :
    (drawn.phase = .done ∧ drawn.ready = true ∧ 0 < drawn.capacity ∧ (0x51 : Byte) ≠ drawn.params.sentinel) ∧
    (fill3.phase = .poll ∧ fill3.ready = false ∧ fill3.cursor + 1 = fill3.capacity ∧
      (0x40 : Byte) ≠ fill3.params.sentinel) ∧
    ((gate true true false).busy = true ∧ (gate true true false).armed = true ∧
      (gate true true false).busActive = false) ∧
    ((gate true true true).armed = true ∧ (gate true true true).busActive = true) := by decide

end Sys2Proof.Tests
end

section
/-! The configurations R8 admits, what the step does in the others, and the idle step (R8, R33). -/

namespace Sys2Proof.Machine

/-- The constraints of R8, as a proposition: the configurations the model admits. -/
theorem params_valid_iff (p : Params) :
    p.valid = true ↔ 0 < p.width ∧ 0 < p.height ∧ 0 < p.bpp ∧
      8 ∣ p.width * p.height * p.bpp ∧ p.wordW ≠ some 0 := by
  simp only [Params.valid, Bool.and_eq_true, decide_eq_true_eq, Nat.dvd_iff_mod_eq_zero, and_assoc]

/-- Nothing is fetched from an empty schedule; with `fetch_idle`, from no other. -/
theorem fetch_of_inbox_nil {s : State} (hv : s.params.valid = true) (hq : s.inbox = []) :
    fetch s = .idle := by
  unfold fetch
  rw [if_pos hv, hq]

/-- The configuration is tested before the schedule is looked at. -/
theorem fetch_of_invalid {s : State} (hv : s.params.valid = false) :
    fetch s = .stop .badConfiguration :=
  if_neg (Bool.eq_false_iff.mp hv)

/-- With nothing asked a step leaves the state (log 2). -/
theorem step_of_inbox_nil {s : State} (hv : s.params.valid = true) (hq : s.inbox = []) :
    step s = .next s := by
  rw [step, fetch_of_inbox_nil hv hq, idleStep]

/-- A configuration outside R8 has no step, whatever is asked. -/
theorem step_of_invalid {s : State} (hv : s.params.valid = false) :
    step s = .refused .badConfiguration := by
  rw [step, fetch_of_invalid hv]

/-- Settles O28: the idle step, the refused configuration, and R8's constraints, each by its lemma. -/
theorem stepIdlesOrRefusesConfiguration : Obligations.StepIdlesOrRefusesConfiguration :=
  ⟨fun _ => step_of_inbox_nil, fun _ => step_of_invalid, params_valid_iff⟩

end Sys2Proof.Machine
end

section
/-! What each operation can do, as one relation with a constructor per outcome. A claim over every operation splits
on it, and a claim that an operation has a step builds one of its constructors. -/

namespace Sys2Proof.Machine

/-- The outcomes of the operations of R58 that have a step: what each asks of the state, and the state it leaves. -/
inductive OpStep (s : State) : Instr → State → Prop
  | rxData {b : Byte} (hready : s.ready = false) (hlt : s.cursor < s.capacity) (hdata : b ≠ s.params.sentinel) :
      OpStep s (.rxData b) (((s.setStorage (Memory.write s.storage s.cursor b)).setCursor (s.cursor + 1)).setReady
        (decide (s.cursor + 1 = s.capacity)))
  | rxSentinel {b : Byte} (hready : s.ready = false) (hlt : s.cursor < s.capacity) (hsent : b = s.params.sentinel) :
      OpStep s (.rxSentinel b) ((s.setStorage (Memory.write s.storage s.cursor b)).setCursor 0)
  | rxDrop {b : Byte} (hclosed : s.ready = true ∨ s.capacity ≤ s.cursor) : OpStep s (.rxDrop b) s
  | rxNone : OpStep s .rxNone s
  | dpPollStartsDraw (hphase : s.phase = .poll) (hready : s.ready = true) :
      OpStep s .dpPoll (((s.setPhase .draw).addEmitted (drawStart s)).setReturned (.bit true))
  | dpPollFindsNone (hphase : s.phase = .poll) (hready : s.ready = false) :
      OpStep s .dpPoll (s.setReturned (.bit false))
  | fbRead {off : Nat} {v : Byte} (hphase : s.phase = .draw) (hready : s.ready = true) (hlt : off < s.capacity)
      (hv : Memory.read s.storage off = some v) : OpStep s (.fbRead off) (s.setReturned (.byte v))
  | drawDone (hphase : s.phase = .draw) : OpStep s .drawDone (s.setPhase .done)
  | dpRelease (hphase : s.phase = .done) :
      OpStep s .dpRelease (((s.setCursor 0).setReady false).setPhase .poll)
  | tgSubmitAccepted {x : Payload} (hbusy : s.busy = false) :
      OpStep s (.tgSubmitAccepted x) (((((s.setBusy true).setBusActive true).setHeld (handOver x s.held)).addEmitted
        (.busStart x)).setReturned .accepted)
  | tgSubmitBlocked {x : Payload} (hbusy : s.busy = true) :
      OpStep s (.tgSubmitBlocked x) (((s.setArmed true).setHeld (keepPayload x s.held)).setReturned .stalled)
  | tgQuery : OpStep s .tgQuery ((s.setArmed true).setReturned (.bit s.busy))
  | busComplete (hactive : s.busActive = true) : OpStep s .busComplete (s.setBusActive false)
  | tgIrq (harmed : s.armed = true) (hactive : s.busActive = false) :
      OpStep s .tgIrq ((s.setBusy false).setArmed false)
  | reset : OpStep s .reset (powerUpState s)

variable {s t : State} {i : Instr}

/-- An operation that answers a state made one of its outcomes. -/
theorem OpStep.of_exec (h : exec i s = .next t) : OpStep s i t := by
  cases i with
  | rxData b => obtain ⟨hr, hc, hb, rfl⟩ := execRxData_next h; exact .rxData hr hc hb
  | rxSentinel b => obtain ⟨hr, hc, hb, rfl⟩ := execRxSentinel_next h; exact .rxSentinel hr hc hb
  | rxDrop b => obtain ⟨hc, rfl⟩ := execRxDrop_next b h; exact .rxDrop hc
  | rxNone => obtain rfl := execRxNone_next h; exact .rxNone
  | dpPoll =>
    obtain ⟨hp, ⟨hr, rfl⟩ | ⟨hr, rfl⟩⟩ := execDpPoll_next h
    · exact .dpPollStartsDraw hp hr
    · exact .dpPollFindsNone hp hr
  | fbRead off => obtain ⟨hp, hr, hlt, v, hv, rfl⟩ := execFbRead_next h; exact .fbRead hp hr hlt hv
  | drawDone => obtain ⟨hp, rfl⟩ := execDrawDone_next h; exact .drawDone hp
  | dpRelease => obtain ⟨hp, rfl⟩ := execDpRelease_next h; exact .dpRelease hp
  | tgSubmitAccepted x => obtain ⟨hb, rfl⟩ := execTgSubmitAccepted_next h; exact .tgSubmitAccepted hb
  | tgSubmitBlocked x => obtain ⟨hb, rfl⟩ := execTgSubmitBlocked_next h; exact .tgSubmitBlocked hb
  | tgQuery => obtain rfl := execTgQuery_next h; exact .tgQuery
  | busComplete => obtain ⟨ha, rfl⟩ := execBusComplete_next h; exact .busComplete ha
  | tgIrq => obtain ⟨ha, hb, rfl⟩ := execTgIrq_next h; exact .tgIrq ha hb
  | reset => obtain rfl := execReset_next h; exact .reset

/-- Each of the outcomes is what the operation answers. -/
theorem OpStep.exec_eq (h : OpStep s i t) : exec i s = .next t := by
  cases h with
  | rxData hr hlt hb =>
    simp [exec, execRxData, bufferClosed_eq_false.mpr ⟨hr, hlt⟩, hb, storeData, storeOffset, memWrite_inRange _ hlt,
      readyAfter, hr, advance_eq hlt]
  | rxSentinel hr hlt hb =>
    simp [exec, execRxSentinel, bufferClosed_eq_false.mpr ⟨hr, hlt⟩, hb, storeSentinel, storeOffset,
      memWrite_inRange _ hlt]
  | rxDrop hclosed => simp [exec, execRxDrop, bufferClosed_eq_true.mpr hclosed]
  | rxNone => simp [exec, execRxNone]
  | dpPollStartsDraw hp hr => simp [exec, execDpPoll, poll, hp, hr]
  | dpPollFindsNone hp hr => simp [exec, execDpPoll, poll, hp, hr]
  | fbRead hp hr hlt hv => simp [exec, execFbRead, hp, hr, hlt, readFrame, memRead_inRange hlt hv]
  | drawDone hp => simp [exec, execDrawDone, hp]
  | dpRelease hp => simp [exec, execDpRelease, hp]
  | tgSubmitAccepted hb => simp [exec, execTgSubmitAccepted, hb]
  | tgSubmitBlocked hb => simp [exec, execTgSubmitBlocked, hb]
  | tgQuery => rfl
  | busComplete ha => simp [exec, execBusComplete, ha]
  | tgIrq ha hb => simp [exec, execTgIrq, completionPending, ha, hb]
  | reset => rfl

/-- The outcomes are exactly what `exec` answers. -/
theorem exec_eq_next_iff : exec i s = .next t ↔ OpStep s i t := ⟨.of_exec, OpStep.exec_eq⟩

/-- No operation writes a parameter (R18, R19). -/
theorem OpStep.params_eq (h : OpStep s i t) : t.params = s.params := by cases h <;> rfl

/-- A FrameBuffer operation leaves the gate, the bus's level and what Display keeps. -/
theorem OpStep.gate_of_isFrameOp (hi : i.isFrameOp = true) (h : OpStep s i t) : SameGate s t ∧ t.held = s.held := by
  cases h with
  | tgSubmitAccepted | tgSubmitBlocked | tgQuery | busComplete | tgIrq | reset => cases hi
  | _ => exact ⟨⟨rfl, rfl, rfl⟩, rfl⟩

/-- A gate operation leaves the frame buffer and the pump's phase. -/
theorem OpStep.frame_of_isGateOp (hi : i.isGateOp = true) (h : OpStep s i t) :
    t.storage = s.storage ∧ t.cursor = s.cursor ∧ t.ready = s.ready ∧ t.phase = s.phase := by
  cases h with
  | tgSubmitAccepted | tgSubmitBlocked | tgQuery | busComplete | tgIrq => exact ⟨rfl, rfl, rfl, rfl⟩
  | _ => cases hi

end Sys2Proof.Machine
end

section
/-! The invariant of every run, in the parts that one operation after another keeps: the frame buffer's, the pump's,
the gate's, and that of Display's record, whose note is made before the operation runs (log 22). -/

namespace Sys2Proof.Machine

/-- The part of the invariant that speaks of the frame buffer alone. -/
structure BufferInv (s : State) : Prop where
  validParams : s.params.valid = true
  storageWf : Memory.wf s.storage = true
  storageInRange : ∀ a, s.capacity ≤ a → byteAt s a = none
  cursorLe : s.cursor ≤ s.capacity
  readyCursor : s.ready = true → s.cursor = s.capacity
  cursorReady : s.cursor = s.capacity → s.ready = true
  frameData : ∀ k, k < s.cursor → HoldsData s k

variable {s t : State} {i : Instr}

theorem Inv.bufferInv (h : Inv s) : BufferInv s :=
  ⟨h.validParams, h.storageWf, h.storageInRange, h.cursorLe, h.readyCursor, h.cursorReady, h.frameData⟩

/-- The buffer's invariant reads the storage, the cursor, `ready` and the parameters, and nothing else. -/
theorem BufferInv.of_same (h : BufferInv s) (hstorage : t.storage = s.storage) (hcursor : t.cursor = s.cursor)
    (hready : t.ready = s.ready) (hparams : t.params = s.params) : BufferInv t := by
  cases s
  cases t
  cases hstorage
  cases hcursor
  cases hready
  cases hparams
  exact ⟨h.validParams, h.storageWf, h.storageInRange, h.cursorLe, h.readyCursor, h.cursorReady, h.frameData⟩

/-- At cursor 0 with `ready` cleared, the buffer's invariant asks for a well-kept storage only. -/
theorem BufferInv.of_empty (hvalid : s.params.valid = true) (hwf : Memory.wf s.storage = true)
    (hrange : ∀ a, s.capacity ≤ a → byteAt s a = none) (hcursor : s.cursor = 0) (hready : s.ready = false) :
    BufferInv s where
  validParams := hvalid
  storageWf := hwf
  storageInRange := hrange
  cursorLe := by omega
  readyCursor hr := by simp [hready] at hr
  cursorReady hc := by
    have hpos : 0 < s.capacity := capacity_pos hvalid
    omega
  frameData k hk := by omega

/-- A store below `CAPACITY` puts nothing outside the storage. -/
theorem byteAt_write_of_capacity_le {a : Nat} {b : Byte}
    (hrange : ∀ a, s.capacity ≤ a → byteAt s a = none) (hlt : s.cursor < s.capacity) (ha : s.capacity ≤ a) :
    Memory.read (Memory.write s.storage s.cursor b) a = none := by
  rw [Memory.read_write_other _ _ (by omega)]
  exact hrange a ha

/-- RX_DATA adds its byte to the data bytes below the cursor; `ready` rises exactly at `CAPACITY` (R80). -/
theorem BufferInv.rxData {b : Byte} (h : BufferInv s) (hlt : s.cursor < s.capacity) (hdata : b ≠ s.params.sentinel) :
    BufferInv (((s.setStorage (Memory.write s.storage s.cursor b)).setCursor (s.cursor + 1)).setReady
      (decide (s.cursor + 1 = s.capacity))) where
  validParams := h.validParams
  storageWf := Memory.wf_write _ _ _ h.storageWf
  storageInRange _ ha := byteAt_write_of_capacity_le h.storageInRange hlt ha
  cursorLe := hlt
  readyCursor hr := of_decide_eq_true hr
  cursorReady hc := decide_eq_true hc
  frameData k hk := by
    by_cases hkc : k = s.cursor
    · exact ⟨b, by simp [byteAt, hkc], hdata⟩
    · have hk' : k < s.cursor + 1 := hk
      obtain ⟨v, hv, hne⟩ := h.frameData k (by omega)
      exact ⟨v, (Memory.read_write_other _ _ hkc).trans hv, hne⟩

/-- Every operation keeps the buffer's part of the invariant. -/
theorem OpStep.bufferInv (h : OpStep s i t) (hs : BufferInv s) : BufferInv t := by
  cases h with
  | rxData _ hlt hdata => exact hs.rxData hlt hdata
  | rxSentinel hready hlt _ =>
    exact .of_empty hs.validParams (Memory.wf_write _ _ _ hs.storageWf)
      (fun _ ha => byteAt_write_of_capacity_le hs.storageInRange hlt ha) rfl hready
  | dpRelease _ => exact .of_empty hs.validParams hs.storageWf hs.storageInRange rfl rfl
  | reset => exact .of_empty hs.validParams rfl (fun _ _ => rfl) rfl rfl
  | _ => exact hs.of_same rfl rfl rfl rfl

/-- Every operation keeps it that a draw, and its end, is of an owned buffer (R93). -/
theorem OpStep.drawOwned (h : OpStep s i t) (hs : s.phase ≠ .poll → s.ready = true) :
    t.phase ≠ .poll → t.ready = true := by
  intro hphase
  cases h with
  | rxData hready _ _ => exact absurd ((hs hphase).symm.trans hready) Bool.noConfusion
  | dpPollStartsDraw _ hready => exact hready
  | drawDone hdraw => exact hs (by simp [hdraw])
  | dpRelease _ | reset => exact absurd rfl hphase
  | _ => exact hs hphase

/-- Every operation keeps the gate's invariant (R113). -/
theorem OpStep.busBusy (h : OpStep s i t) (hs : s.busActive = true → s.busy = true) :
    t.busActive = true → t.busy = true := by
  intro hactive
  cases h with
  | tgSubmitAccepted _ => rfl
  | busComplete _ | reset => cases hactive
  | tgIrq _ hidle => exact absurd (hactive.symm.trans hidle) Bool.noConfusion
  | _ => exact hs hactive

/-- Every operation keeps it that Display keeps each payload once (log 20). -/
theorem OpStep.heldNodup (h : OpStep s i t) (hs : s.held.Nodup) : t.held.Nodup := by
  cases h with
  | tgSubmitAccepted _ => exact handOver_nodup _ hs
  | tgSubmitBlocked _ => exact keepPayload_nodup _ hs
  | reset => exact List.nodup_nil
  | _ => exact hs

/-- Once an operation has been noted and run, each payload is noted once. -/
theorem OpStep.drawHeldNodup (h : OpStep (noteDraw i s) i t) (hs : s.drawHeld.Nodup) : t.drawHeld.Nodup := by
  rw [exec_drawHeld h.exec_eq]
  split
  · exact List.nodup_nil
  · exact drawRecord_nodup i hs

/-- A poll notes nothing new. -/
theorem mem_of_mem_drawRecord_dpPoll {y : Payload} (h : y ∈ drawRecord s .dpPoll) : y ∈ s.drawHeld := by
  unfold drawRecord at h
  cases hr : s.ready with
  | true => simp [hr] at h
  | false => simpa [hr] using h

/-- A submission that stalls notes nothing new but its payload. -/
theorem eq_or_mem_of_mem_drawRecord_tgSubmitBlocked {x y : Payload} (h : y ∈ drawRecord s (.tgSubmitBlocked x)) :
    y = x ∨ y ∈ s.drawHeld := by
  by_cases hp : s.phase = .draw
  · simpa [drawRecord, hp] using h
  · exact .inr (by simpa [drawRecord, hp] using h)

/-- Once an operation has been noted and run, Display keeps what is noted: a stall adds its payload to both records,
an acceptance takes it out of both. -/
theorem OpStep.drawHeldKept (h : OpStep (noteDraw i s) i t) (hheld : s.held.Nodup) (hdraw : s.drawHeld.Nodup)
    (hs : ∀ x ∈ s.drawHeld, x ∈ s.held) : ∀ y ∈ t.drawHeld, y ∈ t.held := by
  intro y hy
  cases h with
  | tgSubmitAccepted _ =>
    obtain ⟨hne, hmem⟩ := (mem_handOver hdraw).mp hy
    exact (mem_handOver hheld).mpr ⟨hne, hs y hmem⟩
  | tgSubmitBlocked _ => exact mem_keepPayload.mpr ((eq_or_mem_of_mem_drawRecord_tgSubmitBlocked hy).imp_right (hs y))
  | dpPollStartsDraw _ _ | dpPollFindsNone _ _ => exact hs y (mem_of_mem_drawRecord_dpPoll hy)
  | reset => cases hy
  | _ => exact hs y hy

/-- With nothing noted, only a submission that stalls in a draw is noted. -/
theorem drawRecord_eq_nil (i : Instr) (hphase : s.phase ≠ .draw) (hs : s.drawHeld = []) : drawRecord s i = [] := by
  cases i with
  | dpPoll => simp [drawRecord, hs]
  | tgSubmitAccepted x => simp [drawRecord, handOver, hs]
  | tgSubmitBlocked x => simp [drawRecord, hphase, hs]
  | _ => exact hs

/-- Once an operation has been noted and run, nothing is noted outside a draw; for Display's return, because it comes
only with nothing noted (R99). -/
theorem OpStep.drawHeldInDraw (h : OpStep (noteDraw i s) i t) (hreturn : i = .drawDone → s.drawHeld = [])
    (hs : s.phase ≠ .draw → s.drawHeld = []) : t.phase ≠ .draw → t.drawHeld = [] := by
  intro hphase
  have hnote : t.drawHeld = if i = .reset then [] else drawRecord s i := exec_drawHeld h.exec_eq
  have hbefore (hp : s.phase ≠ .draw) : t.drawHeld = [] := by
    rw [hnote, drawRecord_eq_nil i hp (hs hp), ite_self]
  cases h with
  | dpPollStartsDraw _ _ => exact absurd rfl hphase
  | drawDone _ => exact hreturn rfl
  | dpRelease hdone => exact hbefore fun hp => Phase.noConfusion (hdone.symm.trans hp)
  | reset => rfl
  | _ => exact hbefore hphase

/-- An operation, noted and run in a state that meets the invariant, meets it again. -/
theorem OpStep.inv (h : OpStep (noteDraw i s) i t) (hreturn : i = .drawDone → s.drawHeld = []) (hs : Inv s) :
    Inv t := by
  have hbuffer : BufferInv t := h.bufferInv (hs.bufferInv.of_same rfl rfl rfl rfl)
  exact {
    validParams := hbuffer.validParams
    storageWf := hbuffer.storageWf
    storageInRange := hbuffer.storageInRange
    cursorLe := hbuffer.cursorLe
    readyCursor := hbuffer.readyCursor
    cursorReady := hbuffer.cursorReady
    frameData := hbuffer.frameData
    drawOwned := h.drawOwned hs.drawOwned
    busBusy := h.busBusy hs.busBusy
    heldNodup := h.heldNodup hs.heldNodup
    drawHeldNodup := h.drawHeldNodup hs.drawHeldNodup
    drawHeldKept := h.drawHeldKept hs.heldNodup hs.drawHeldNodup hs.drawHeldKept
    drawHeldInDraw := h.drawHeldInDraw hreturn hs.drawHeldInDraw }

/-- The invariant does not speak of the schedule. -/
theorem Inv.setInbox (h : Inv s) (q : List Request) : Inv (s.setInbox q) :=
  ⟨h.validParams, h.storageWf, h.storageInRange, h.cursorLe, h.readyCursor, h.cursorReady, h.frameData, h.drawOwned,
    h.busBusy, h.heldNodup, h.drawHeldNodup, h.drawHeldKept, h.drawHeldInDraw⟩

/-- A delivered byte selects an operation of the receiver, never Display's return. -/
theorem decodeByte_ne_drawDone (p : Params) (closed : Bool) (b : Byte) : decodeByte p closed b ≠ .drawDone := by
  unfold decodeByte
  split
  · exact nofun
  · split <;> exact nofun

/-- Display's return is selected only when nothing of its draw is stalled (R99, log 8). -/
theorem stalled_eq_false_of_decode_drawDone {p : Params} {sel : Selection} {r : Request}
    (h : decode p sel r = .ok .drawDone) : sel.stalled = false := by
  cases r with
  | rx bytes =>
    match bytes with
    | [] => cases h
    | [b] => exact absurd (Except.ok.inj h) (decodeByte_ne_drawDone p sel.closed b)
    | _ :: _ :: _ => cases h
  | drawDone =>
    cases hstalled : sel.stalled with
    | false => rfl
    | true => simp [decode, hstalled] at h
  | tgSubmit x => cases hbusy : sel.busy <;> simp [decode, hbusy] at h
  | _ => cases h

/-- Where Display returns from `draw`, every submission of the draw has been accepted. -/
theorem drawHeld_eq_nil_of_decode_drawDone {r : Request} (h : decode s.params (selection s) r = .ok .drawDone) :
    s.drawHeld = [] := by
  have hstalled : displayStalled s = false := stalled_eq_false_of_decode_drawDone h
  simpa [displayStalled] using hstalled

/-- Settles O41: an idle step leaves the state; any other notes its request's operation and runs it. -/
theorem stepKeepsInvariant : Obligations.StepKeepsInvariant := by
  intro s t hs h
  obtain ⟨-, ⟨-, rfl⟩ | ⟨i, r, rest, -, hdecode, -, hexec⟩⟩ := step_next h
  · exact hs
  · have hreturn : i = .drawDone → s.drawHeld = [] := by
      rintro rfl
      exact drawHeld_eq_nil_of_decode_drawDone hdecode
    exact OpStep.inv (.of_exec hexec) hreturn (hs.setInbox rest)

/-- The state after power-up meets the invariant, for every configuration that R8 admits. -/
theorem inv_resetWith {p : Params} (hvalid : p.valid = true) : Inv (State.resetWith p) := by
  have hbuffer : BufferInv (State.resetWith p) := .of_empty hvalid rfl (fun _ _ => rfl) rfl rfl
  exact ⟨hvalid, hbuffer.storageWf, hbuffer.storageInRange, hbuffer.cursorLe, hbuffer.readyCursor,
    hbuffer.cursorReady, hbuffer.frameData, nofun, nofun, List.nodup_nil, List.nodup_nil, nofun, fun _ => rfl⟩

/-- Settles O42: the launch state is the power-up state of the source's configuration, which R8 admits. -/
theorem resetMeetsInvariant : Obligations.ResetMeetsInvariant := inv_resetWith (p := Params.default) (by decide)

end Sys2Proof.Machine
end

section
/-! The parameters and the cursor's bits (R8, R15, R18, R78). -/

namespace Sys2Proof.Machine

/-- No step writes a parameter: an idle step changes nothing, and no operation writes one. -/
theorem step_params_eq {s t : State} (h : step s = .next t) : t.params = s.params := by
  obtain ⟨-, ⟨-, rfl⟩ | ⟨i, r, rest, -, -, -, hexec⟩⟩ := step_next h
  · rfl
  · exact (OpStep.of_exec hexec).params_eq

/-- An admitted geometry divides into whole bytes, so `CAPACITY` loses none of its bits. -/
theorem capacity_mul_eight {p : Params} (h : p.valid = true) : p.capacity * 8 = p.width * p.height * p.bpp := by
  obtain ⟨-, -, -, hdvd, -⟩ := (params_valid_iff p).mp h
  exact Nat.div_mul_cancel hdvd

/-- Settles O31: the step's part by `step_params_eq`; the source's literals by evaluation. -/
theorem parametersNeverChange : Obligations.ParametersNeverChange :=
  ⟨fun _ _ => step_params_eq, fun _ h => ⟨capacity_mul_eight h, capacity_pos h⟩, by decide, by decide⟩

/-- No fewer than `CURSOR_W` bits hold `CAPACITY`. -/
theorem cursorW_le {p : Params} {n : Nat} (h : p.capacity < 2 ^ n) : p.cursorW ≤ n := by
  unfold Params.cursorW
  split
  · exact Nat.zero_le n
  · next hne => exact (Nat.log2_lt hne).mpr h

/-- Settles O8: `CAPACITY` fits in `CURSOR_W` bits, and in no fewer. -/
theorem cursorNeverWraps : Obligations.CursorNeverWraps :=
  fun p _ hk => ⟨advance_eq hk, hk, capacity_lt_two_pow p, fun _ => cursorW_le⟩

end Sys2Proof.Machine
end

section
/-! Which operations write the cursor, `ready`, and the flags of the gate (R15, R17, R23, R24, R28). -/

namespace Sys2Proof.Machine

variable {s t : State} {i : Instr}

/-- Every operation that is not on R15's list of writers leaves the cursor. -/
theorem OpStep.cursor_eq (h : OpStep s i t) (hdata : ∀ b, i ≠ .rxData b) (hsent : ∀ b, i ≠ .rxSentinel b)
    (hrelease : i ≠ .dpRelease) (hreset : i ≠ .reset) : t.cursor = s.cursor := by
  cases h with
  | rxData => exact absurd rfl (hdata _)
  | rxSentinel => exact absurd rfl (hsent _)
  | dpRelease => exact absurd rfl hrelease
  | reset => exact absurd rfl hreset
  | _ => rfl

/-- Settles O33: each listed writer by its inversion lemma, and every other operation leaves the cursor. -/
theorem cursorWrittenOnlyAsListed : Obligations.CursorWrittenOnlyAsListed := by
  intro s t i h
  refine ⟨?_, ?_, (OpStep.of_exec h).cursor_eq⟩
  · rintro ⟨b, rfl⟩
    obtain ⟨-, -, -, rfl⟩ := execRxData_next h
    rfl
  · rintro (⟨b, rfl⟩ | rfl | rfl)
    · obtain ⟨-, -, -, rfl⟩ := execRxSentinel_next h
      rfl
    · obtain ⟨-, rfl⟩ := execDpRelease_next h
      rfl
    · obtain rfl := execReset_next h
      rfl

/-- `ready` rises only by an RX_DATA into the last offset, whose byte is then in place (R17, R80). -/
theorem OpStep.ready_rises (h : OpStep s i t) (hlow : s.ready = false) (hhigh : t.ready = true) :
    ∃ b, i = .rxData b ∧ storeOffset s + 1 = s.capacity ∧ byteAt t (storeOffset s) = some b := by
  cases h with
  | @rxData b _ _ _ => exact ⟨b, rfl, of_decide_eq_true hhigh, Memory.read_write_same _ _ _⟩
  | dpRelease | reset => cases hhigh
  | _ => exact absurd (hlow.symm.trans hhigh) Bool.noConfusion

/-- `ready` falls only by the release or power-up: RX_DATA, which also writes it, finds it 0. -/
theorem OpStep.ready_falls (h : OpStep s i t) (hhigh : s.ready = true) (hlow : t.ready = false) :
    i = .dpRelease ∨ i = .reset := by
  cases h with
  | rxData hready => exact absurd (hready.symm.trans hhigh) Bool.noConfusion
  | dpRelease => exact .inl rfl
  | reset => exact .inr rfl
  | _ => exact absurd (hlow.symm.trans hhigh) Bool.noConfusion

/-- Settles O34: the rise and the fall of `ready`, each over every outcome. -/
theorem readyWrittenOnlyAsListed : Obligations.ReadyWrittenOnlyAsListed :=
  fun _ _ _ h => ⟨(OpStep.of_exec h).ready_rises, (OpStep.of_exec h).ready_falls⟩

/-- `busy` rises only by an accepted submission (R23, R107). -/
theorem OpStep.busy_rises (h : OpStep s i t) (hlow : s.busy = false) (hhigh : t.busy = true) :
    ∃ x, i = .tgSubmitAccepted x := by
  cases h with
  | tgSubmitAccepted => exact ⟨_, rfl⟩
  | tgIrq | reset => cases hhigh
  | _ => exact absurd (hlow.symm.trans hhigh) Bool.noConfusion

/-- `busy` falls only by the completion handler or power-up (R23, R111). -/
theorem OpStep.busy_falls (h : OpStep s i t) (hhigh : s.busy = true) (hlow : t.busy = false) :
    i = .tgIrq ∨ i = .reset := by
  cases h with
  | tgIrq => exact .inl rfl
  | reset => exact .inr rfl
  | tgSubmitAccepted => cases hlow
  | _ => exact absurd (hlow.symm.trans hhigh) Bool.noConfusion

/-- `armed` rises only by a query or a blocked submission (R24, R108, R109). -/
theorem OpStep.armed_rises (h : OpStep s i t) (hlow : s.armed = false) (hhigh : t.armed = true) :
    i = .tgQuery ∨ ∃ x, i = .tgSubmitBlocked x := by
  cases h with
  | tgQuery => exact .inl rfl
  | tgSubmitBlocked => exact .inr ⟨_, rfl⟩
  | tgIrq | reset => cases hhigh
  | _ => exact absurd (hlow.symm.trans hhigh) Bool.noConfusion

/-- `armed` falls only by the completion handler or power-up (R24, R112). -/
theorem OpStep.armed_falls (h : OpStep s i t) (hhigh : s.armed = true) (hlow : t.armed = false) :
    i = .tgIrq ∨ i = .reset := by
  cases h with
  | tgIrq => exact .inl rfl
  | reset => exact .inr rfl
  | tgQuery | tgSubmitBlocked => cases hlow
  | _ => exact absurd (hlow.symm.trans hhigh) Bool.noConfusion

/-- The bus's level rises only by an accepted submission (R28, R107). -/
theorem OpStep.busActive_rises (h : OpStep s i t) (hlow : s.busActive = false) (hhigh : t.busActive = true) :
    ∃ x, i = .tgSubmitAccepted x := by
  cases h with
  | tgSubmitAccepted => exact ⟨_, rfl⟩
  | busComplete | reset => cases hhigh
  | _ => exact absurd (hlow.symm.trans hhigh) Bool.noConfusion

/-- The bus's level falls only by the bus's completion or power-up (R28, R110). -/
theorem OpStep.busActive_falls (h : OpStep s i t) (hhigh : s.busActive = true) (hlow : t.busActive = false) :
    i = .busComplete ∨ i = .reset := by
  cases h with
  | busComplete => exact .inl rfl
  | reset => exact .inr rfl
  | tgSubmitAccepted => cases hlow
  | _ => exact absurd (hlow.symm.trans hhigh) Bool.noConfusion

/-- Settles O35: the rise and the fall of each flag, each over every outcome. -/
theorem gateFlagsWrittenOnlyAsListed : Obligations.GateFlagsWrittenOnlyAsListed := by
  intro s t i h
  have hop : OpStep s i t := .of_exec h
  exact ⟨hop.busy_rises, hop.busy_falls, hop.armed_rises, hop.armed_falls, hop.busActive_rises, hop.busActive_falls⟩

end Sys2Proof.Machine
end

section
/-! FrameBuffer operations and gate operations commute (R132): each family acts on its own part of the state, reads
no other, and leaves the other's alone. -/

namespace Sys2Proof.Machine

/-- What the FrameBuffer operations read and write. -/
def frameView (s : State) : Memory × Nat × Bool × Phase × Params :=
  (s.storage, s.cursor, s.ready, s.phase, s.params)

/-- What the gate operations read and write, with what Display keeps. -/
def gateView (s : State) : Bool × Bool × Bool × List Payload := (s.busy, s.armed, s.busActive, s.held)

/-- An operation, run from `s` to `t` and from `s'` to `t'`, hands out the same: what it returns, and its outputs. -/
structure HandsOutAlike (i : Instr) (s t s' t' : State) : Prop where
  returned : i.returns = true → t'.returned = t.returned
  emitted : ∃ outputs, t.emitted = s.emitted ++ outputs ∧ t'.emitted = s'.emitted ++ outputs

/-- An operation acts on a part of the state: wherever that part is the same it has the same step, as far as the part
and what is handed out can tell. -/
def ActsOn {α : Type} (view : State → α) (i : Instr) : Prop :=
  ∀ s t s', OpStep s i t → view s' = view s →
    ∃ t', OpStep s' i t' ∧ view t' = view t ∧ HandsOutAlike i s t s' t'

/-- An operation leaves a part of the state alone. -/
def Leaves {α : Type} (view : State → α) (i : Instr) : Prop := ∀ s t, OpStep s i t → view t = view s

variable {s t u s' t' : State} {i j : Instr}

/-- Outputs aside, it is enough that what is returned is the same. -/
theorem HandsOutAlike.of_silent (hreturned : i.returns = true → t'.returned = t.returned)
    (hs : t.emitted = s.emitted) (hs' : t'.emitted = s'.emitted) : HandsOutAlike i s t s' t' :=
  ⟨hreturned, [], by simp [hs], by simp [hs']⟩

theorem leaves_frameView_of_isGateOp (hi : i.isGateOp = true) : Leaves frameView i := by
  intro s t h
  obtain ⟨hstorage, hcursor, hready, hphase⟩ := h.frame_of_isGateOp hi
  simp only [frameView, hstorage, hcursor, hready, hphase, h.params_eq]

theorem leaves_gateView_of_isFrameOp (hi : i.isFrameOp = true) : Leaves gateView i := by
  intro s t h
  obtain ⟨⟨hbusy, harmed, hactive⟩, hheld⟩ := h.gate_of_isFrameOp hi
  simp only [gateView, hbusy, harmed, hactive, hheld]

/-- A FrameBuffer operation reads the buffer, the phase and the parameters, and nothing else (R132). -/
theorem actsOn_frameView_of_isFrameOp (hi : i.isFrameOp = true) : ActsOn frameView i := by
  intro s t s' h hview
  cases s
  cases s'
  cases hview
  cases h with
  | rxData hready hlt hdata => exact ⟨_, .rxData hready hlt hdata, rfl, .of_silent nofun rfl rfl⟩
  | rxSentinel hready hlt hsent => exact ⟨_, .rxSentinel hready hlt hsent, rfl, .of_silent nofun rfl rfl⟩
  | rxDrop hclosed => exact ⟨_, .rxDrop hclosed, rfl, .of_silent nofun rfl rfl⟩
  | rxNone => exact ⟨_, .rxNone, rfl, .of_silent nofun rfl rfl⟩
  | dpPollStartsDraw hphase hready =>
    exact ⟨_, .dpPollStartsDraw hphase hready, rfl, fun _ => rfl, _, rfl, rfl⟩
  | dpPollFindsNone hphase hready =>
    exact ⟨_, .dpPollFindsNone hphase hready, rfl, .of_silent (fun _ => rfl) rfl rfl⟩
  | fbRead hphase hready hlt hv =>
    exact ⟨_, .fbRead hphase hready hlt hv, rfl, .of_silent (fun _ => rfl) rfl rfl⟩
  | drawDone hphase => exact ⟨_, .drawDone hphase, rfl, .of_silent nofun rfl rfl⟩
  | dpRelease hphase => exact ⟨_, .dpRelease hphase, rfl, .of_silent nofun rfl rfl⟩
  | tgSubmitAccepted | tgSubmitBlocked | tgQuery | busComplete | tgIrq | reset => cases hi

/-- A gate operation reads the gate, the bus's level and what Display keeps, and nothing else (R132). -/
theorem actsOn_gateView_of_isGateOp (hi : i.isGateOp = true) : ActsOn gateView i := by
  intro s t s' h hview
  cases s
  cases s'
  cases hview
  cases h with
  | tgSubmitAccepted hbusy => exact ⟨_, .tgSubmitAccepted hbusy, rfl, fun _ => rfl, _, rfl, rfl⟩
  | tgSubmitBlocked hbusy => exact ⟨_, .tgSubmitBlocked hbusy, rfl, .of_silent (fun _ => rfl) rfl rfl⟩
  | tgQuery => exact ⟨_, .tgQuery, rfl, .of_silent (fun _ => rfl) rfl rfl⟩
  | busComplete hactive => exact ⟨_, .busComplete hactive, rfl, .of_silent nofun rfl rfl⟩
  | tgIrq harmed hactive => exact ⟨_, .tgIrq harmed hactive, rfl, .of_silent nofun rfl rfl⟩
  | _ => cases hi

/-- Two operations that act on different parts of the state, each leaving the other's alone, commute: in the other
order both have their step, both parts end the same, and each operation hands out the same. -/
theorem OpStep.commute {α β : Type} {viewI : State → α} {viewJ : State → β}
    (hactsI : ActsOn viewI i) (hleavesI : Leaves viewJ i) (hactsJ : ActsOn viewJ j) (hleavesJ : Leaves viewI j)
    (hi : OpStep s i t) (hj : OpStep t j u) :
    ∃ t' u', OpStep s j t' ∧ OpStep t' i u' ∧ viewI u' = viewI u ∧ viewJ u' = viewJ u ∧
      (i.returns = true → u'.returned = t.returned) ∧ (j.returns = true → u.returned = t'.returned) ∧
      u'.emitted.Perm u.emitted := by
  obtain ⟨t', hj', hviewJ, hreturnsJ, outJ, hu, ht'⟩ := hactsJ t u s hj (hleavesI s t hi).symm
  obtain ⟨u', hi', hviewI, hreturnsI, outI, ht, hu'⟩ := hactsI s t t' hi (hleavesJ s t' hj')
  refine ⟨t', u', hj', hi', ?_, ?_, hreturnsI, fun hr => (hreturnsJ hr).symm, ?_⟩
  · exact hviewI.trans (hleavesJ t u hj).symm
  · exact (hleavesI t' u' hi').trans hviewJ
  · rw [hu', ht', hu, ht, List.append_assoc, List.append_assoc]
    exact List.perm_append_comm.append_left s.emitted

/-- The two parts together are the block, and what Display keeps. -/
theorem block_eq_of_views (hframe : frameView t = frameView s) (hgate : gateView t = gateView s) :
    t.block = s.block ∧ t.held = s.held := by
  simp only [frameView, gateView, Prod.mk.injEq] at hframe hgate
  obtain ⟨hstorage, hcursor, hready, hphase, -⟩ := hframe
  obtain ⟨hbusy, harmed, hactive, hheld⟩ := hgate
  simp only [State.block, hstorage, hcursor, hready, hphase, hbusy, harmed, hactive, hheld, and_self]

/-- Power-up, which alone ends Display's note of its draw, is in neither family. -/
theorem OpStep.drawHeld_eq (h : OpStep s i t) (hi : i ≠ .reset) : t.drawHeld = s.drawHeld := by
  rw [exec_drawHeld h.exec_eq, if_neg hi]

/-- Settles O56: the families leave each other's part alone, and so commute, whichever comes first. -/
theorem frameAndGateOperationsCommute : Obligations.FrameAndGateOperationsCommute := by
  refine ⟨fun s t i h => ⟨fun hi => ?_, fun hi => ?_⟩, fun s t u i j hfamilies hi hj => ?_⟩
  · have hop : OpStep s i t := .of_exec h
    obtain ⟨hgate, hheld⟩ := hop.gate_of_isFrameOp hi
    exact ⟨hgate, hheld, hop.drawHeld_eq (by rintro rfl; cases hi)⟩
  · have hop : OpStep s i t := .of_exec h
    obtain ⟨hstorage, hcursor, hready, hphase⟩ := hop.frame_of_isGateOp hi
    refine ⟨⟨fun a => ?_, hcursor, hready, hphase⟩, hop.drawHeld_eq (by rintro rfl; cases hi)⟩
    rw [byteAt, hstorage, byteAt]
  · obtain ⟨hframe, hgate⟩ | ⟨hgate, hframe⟩ := hfamilies
    · obtain ⟨t', u', hj', hi', hviewF, hviewG, hrest⟩ := OpStep.commute
        (actsOn_frameView_of_isFrameOp hframe) (leaves_gateView_of_isFrameOp hframe)
        (actsOn_gateView_of_isGateOp hgate) (leaves_frameView_of_isGateOp hgate) (.of_exec hi) (.of_exec hj)
      obtain ⟨hblock, hheld⟩ := block_eq_of_views hviewF hviewG
      exact ⟨t', u', hj'.exec_eq, hi'.exec_eq, hblock, hheld, hrest⟩
    · obtain ⟨t', u', hj', hi', hviewG, hviewF, hrest⟩ := OpStep.commute
        (actsOn_gateView_of_isGateOp hgate) (leaves_frameView_of_isGateOp hgate)
        (actsOn_frameView_of_isFrameOp hframe) (leaves_gateView_of_isFrameOp hframe) (.of_exec hi) (.of_exec hj)
      obtain ⟨hblock, hheld⟩ := block_eq_of_views hviewF hviewG
      exact ⟨t', u', hj'.exec_eq, hi'.exec_eq, hblock, hheld, hrest⟩

end Sys2Proof.Machine
end

section
/-! The launch state, and reads of bytes that have no value (R34, log 4). -/

namespace Sys2Proof.Machine

/-- A guard in front of an operation that is refused leaves it refused. -/
theorem enabledWhen_refused {c : Bool} {r : Refusal} {op : State → Result} {s : State}
    (h : c = true → ∃ r', op s = .refused r') : ∃ r', enabledWhen c r op s = .refused r' := by
  cases c with
  | true => exact h rfl
  | false => exact ⟨r, rfl⟩

/-- In range, the read of an offset without a value is refused, not answered with a zero. -/
theorem readFrame_of_byteAt_none {s : State} {off : Nat} (hlt : off < s.capacity) (h : byteAt s off = none) :
    readFrame off s = .refused .readUnspecified := by
  have hread : Memory.read s.storage off = none := h
  simp [readFrame, memRead, hlt, hread]

/-- FB_READ of an offset without a value is refused in every state: by one of its three guards, or by the read. -/
theorem execFbRead_of_byteAt_none {s : State} {off : Nat} (h : byteAt s off = none) :
    ∃ r, exec (.fbRead off) s = .refused r :=
  enabledWhen_refused fun _ => enabledWhen_refused fun _ => enabledWhen_refused fun hlt =>
    ⟨_, readFrame_of_byteAt_none (of_decide_eq_true hlt) h⟩

/-- Settles O21: the launch state's fields as they stand, and the refused read of a byte without a value. -/
theorem resetStateValues : Obligations.ResetStateValues :=
  ⟨rfl, rfl, rfl, rfl, rfl, rfl, Memory.read_nil, fun _ _ => execFbRead_of_byteAt_none⟩

end Sys2Proof.Machine
end

section
/-! What a step makes of the next request, and of a byte that SerialLink delivers (R47, R58, R77). -/

namespace Sys2Proof.Machine

variable {s : State}

/-- A request that decodes to a well-formed operation is fetched, and noted; with `fetch_run`, no other is. -/
theorem fetch_of_decode {r : Request} {rest : List Request} {i : Instr} (hv : s.params.valid = true)
    (hq : s.inbox = r :: rest) (hd : decode s.params (selection s) r = .ok i) (hw : i.wf s.params = true) :
    fetch s = .run i (noteDraw i (s.setInbox rest)) := by
  simp only [fetch, if_pos hv, hq, hd, if_pos hw]

/-- The operation that the next request decodes to is the one that runs (R47). -/
theorem step_of_decode {r : Request} {rest : List Request} {i : Instr} (hv : s.params.valid = true)
    (hq : s.inbox = r :: rest) (hd : decode s.params (selection s) r = .ok i) (hw : i.wf s.params = true) :
    step s = exec i (noteDraw i (s.setInbox rest)) := by
  rw [step, fetch_of_decode hv hq hd hw]

/-- Settles O27: the step runs the operation that was fetched, and the note is a write of `drawHeld`. -/
theorem stepRunsDecodedRequest : Obligations.StepRunsDecodedRequest :=
  fun s _ rest i hv hq hd hw => ⟨step_of_decode hv hq hd hw, drawRecord (s.setInbox rest) i, rfl⟩

/-- R77's dispatch gives a byte to an operation that may carry it: the class of R57 is the test of R80 and R82. -/
theorem decodeByte_wf (p : Params) (closed : Bool) (b : Byte) : (decodeByte p closed b).wf p = true := by
  cases closed with
  | true => rfl
  | false => by_cases hb : b = p.sentinel <;> simp [decodeByte, classify, Instr.wf, hb]

/-- Display notes nothing of a delivered byte. -/
theorem noteDraw_decodeByte (p : Params) (closed : Bool) (b : Byte) (s : State) :
    noteDraw (decodeByte p closed b) s = s := by
  refine noteDraw_of_record ?_
  unfold decodeByte
  split
  · rfl
  · split <;> rfl

/-- The step on a delivered byte is the operation that R77's dispatch selects in the state it meets. -/
theorem step_of_byte {b : Byte} {rest : List Request} (hv : s.params.valid = true)
    (hq : s.inbox = .rx [b] :: rest) :
    step s = exec (decodeByte s.params (bufferClosed s) b) (s.setInbox rest) := by
  have hd : decode s.params (selection s) (.rx [b]) = .ok (decodeByte s.params (bufferClosed s) b) := rfl
  rw [step_of_decode hv hq hd (decodeByte_wf _ _ _), noteDraw_decodeByte]

end Sys2Proof.Machine
end

section
/-! What the receiver makes of a delivered byte, and of a stream of them, as a function of the state: no byte is
without a step (R85), so the state it leads to can be given outright. -/

namespace Sys2Proof.Machine

/-- The state after a delivered byte, the schedule aside: dropped by a closed buffer (R84), else stored at the
cursor, which a sentinel takes to 0 (R82) and a data byte moves on (R80). `opStep_receive` ties it to the model. -/
def receive (s : State) (b : Byte) : State :=
  if bufferClosed s then s
  else if b = s.params.sentinel then (s.setStorage (Memory.write s.storage s.cursor b)).setCursor 0
  else ((s.setStorage (Memory.write s.storage s.cursor b)).setCursor (s.cursor + 1)).setReady
    (decide (s.cursor + 1 = s.capacity))

variable {s : State} {b : Byte}

theorem receive_of_closed (b : Byte) (h : bufferClosed s = true) : receive s b = s := if_pos h

theorem receive_sentinel (h : bufferClosed s = false) :
    receive s s.params.sentinel =
      (s.setStorage (Memory.write s.storage s.cursor s.params.sentinel)).setCursor 0 := by
  simp [receive, h]

theorem receive_data (h : bufferClosed s = false) (hdata : b ≠ s.params.sentinel) :
    receive s b = ((s.setStorage (Memory.write s.storage s.cursor b)).setCursor (s.cursor + 1)).setReady
      (decide (s.cursor + 1 = s.capacity)) := by
  simp [receive, h, hdata]

/-- A byte that an open buffer receives, whatever its class, is stored at the cursor (R80, R82). -/
theorem receive_storage (b : Byte) (h : bufferClosed s = false) :
    (receive s b).storage = Memory.write s.storage s.cursor b := by
  by_cases hb : b = s.params.sentinel
  · subst hb
    rw [receive_sentinel h]
    rfl
  · rw [receive_data h hb]
    rfl

/-- `receive` is the outcome of the operation that R77's dispatch selects. -/
theorem opStep_receive (s : State) (b : Byte) :
    OpStep s (decodeByte s.params (bufferClosed s) b) (receive s b) := by
  cases hclosed : bufferClosed s with
  | true =>
    rw [receive_of_closed b hclosed]
    exact .rxDrop (bufferClosed_eq_true.mp hclosed)
  | false =>
    obtain ⟨hready, hlt⟩ := bufferClosed_eq_false.mp hclosed
    by_cases hb : b = s.params.sentinel
    · subst hb
      rw [receive_sentinel hclosed]
      simpa [decodeByte, classify] using OpStep.rxSentinel hready hlt rfl
    · rw [receive_data hclosed hb]
      simpa [decodeByte, classify, hb] using OpStep.rxData hready hlt hb

@[simp] theorem receive_params (s : State) (b : Byte) : (receive s b).params = s.params :=
  (opStep_receive s b).params_eq

@[simp] theorem receive_capacity (s : State) (b : Byte) : (receive s b).capacity = s.capacity :=
  congrArg Params.capacity (receive_params s b)

theorem foldl_receive_capacity (bytes : List Byte) (s : State) :
    (bytes.foldl receive s).capacity = s.capacity := by
  induction bytes generalizing s with
  | nil => rfl
  | cons b bytes ih => rw [List.foldl_cons, ih, receive_capacity]

/-- The receiver does not look at the schedule. -/
theorem receive_setInbox (s : State) (b : Byte) (q : List Request) :
    receive (s.setInbox q) b = (receive s b).setInbox q := by
  have hmoved := exec_setInbox q (opStep_receive s b).exec_eq
  exact Host.Outcome.next.inj ((opStep_receive (s.setInbox q) b).exec_eq.symm.trans hmoved)

theorem foldl_receive_setInbox (bytes : List Byte) (s : State) (q : List Request) :
    bytes.foldl receive (s.setInbox q) = (bytes.foldl receive s).setInbox q := by
  induction bytes generalizing s with
  | nil => rfl
  | cons b bytes ih => rw [List.foldl_cons, receive_setInbox, ih, List.foldl_cons]

/-- A delivered byte is received, in one step, in every state (R85). -/
theorem step_eq_receive {rest : List Request} (hv : s.params.valid = true) (hq : s.inbox = .rx [b] :: rest) :
    step s = .next ((receive s b).setInbox rest) := by
  rw [step_of_byte hv hq]
  exact exec_setInbox rest (opStep_receive s b).exec_eq

/-- FEED completes from every state: its bytes are received one after the other (R71, R85). -/
theorem run_feed {bytes : List Byte} {rest : List Request} (hv : s.params.valid = true)
    (hq : s.inbox = feed bytes ++ rest) :
    run bytes.length s = .next ((bytes.foldl receive s).setInbox rest) := by
  induction bytes generalizing s with
  | nil =>
    obtain rfl : s.inbox = rest := hq
    rfl
  | cons b bytes ih =>
    have hstep : step s = .next ((receive s b).setInbox (feed bytes ++ rest)) := step_eq_receive hv hq
    have hv' : ((receive s b).setInbox (feed bytes ++ rest)).params.valid = true := by simpa using hv
    rw [List.length_cons, run_succ_of_step _ hstep, ih hv' rfl, foldl_receive_setInbox, List.foldl_cons]
    rfl

end Sys2Proof.Machine
end

section
/-! Where the storage is written (R38, R41), and where a stream of data bytes is put (R39, R62). -/

namespace Sys2Proof.Machine

variable {s t : State} {i : Instr}

/-- Power-up aside, only RX_DATA and RX_SENTINEL write the storage, each one byte at the cursor (R41). -/
theorem OpStep.storage_written (h : OpStep s i t) (hchanged : t.storage ≠ s.storage) (hreset : i ≠ .reset) :
    s.ready = false ∧ storeOffset s < s.capacity ∧
      ∃ b, (i = .rxData b ∨ i = .rxSentinel b) ∧ byteAt t (storeOffset s) = some b ∧
        ∀ a, a ≠ storeOffset s → byteAt t a = byteAt s a := by
  cases h with
  | @rxData b hready hlt _ =>
    exact ⟨hready, hlt, b, .inl rfl, Memory.read_write_same _ _ _, fun _ => Memory.read_write_other _ _⟩
  | @rxSentinel b hready hlt _ =>
    exact ⟨hready, hlt, b, .inr rfl, Memory.read_write_same _ _ _, fun _ => Memory.read_write_other _ _⟩
  | reset => exact absurd rfl hreset
  | _ => exact absurd rfl hchanged

/-- Settles O32: the outcomes of every operation, split once in `OpStep.storage_written`. -/
theorem storageWrittenOnlyByReceiver : Obligations.StorageWrittenOnlyByReceiver :=
  fun _ _ _ h => (OpStep.of_exec h).storage_written

/-- A delivered byte leaves everything outside the storage: what is written, is written below `CAPACITY`. -/
theorem byteAt_receive_of_capacity_le {a : Nat} (b : Byte) (ha : s.capacity ≤ a) :
    byteAt (receive s b) a = byteAt s a := by
  cases hclosed : bufferClosed s with
  | true => rw [receive_of_closed b hclosed]
  | false =>
    obtain ⟨-, hlt⟩ := bufferClosed_eq_false.mp hclosed
    rw [byteAt, receive_storage b hclosed]
    exact Memory.read_write_other _ _ (by omega)

theorem byteAt_foldl_receive_of_capacity_le {a : Nat} (bytes : List Byte) (ha : s.capacity ≤ a) :
    byteAt (bytes.foldl receive s) a = byteAt s a := by
  induction bytes generalizing s with
  | nil => rfl
  | cons b bytes ih =>
    rw [List.foldl_cons, ih (by simpa using ha), byteAt_receive_of_capacity_le b ha]

/-- A read outside the storage is refused: by the guards on phase and ownership, or by the one on its range. -/
theorem execFbRead_of_capacity_le {a : Nat} (ha : s.capacity ≤ a) : ∃ r, exec (.fbRead a) s = .refused r :=
  enabledWhen_refused fun _ => enabledWhen_refused fun _ => enabledWhen_refused fun hlt =>
    absurd (of_decide_eq_true hlt) (Nat.not_lt.mpr ha)

/-- Settles O44: the stream by `run_feed`, what it leaves by induction over it, and the refused read. -/
theorem noByteStreamWritesOutOfRange : Obligations.NoByteStreamWritesOutOfRange :=
  ⟨fun _ bytes _ hv hq => ⟨_, run_feed hv hq, rfl, fun _ => byteAt_foldl_receive_of_capacity_le bytes⟩,
    fun _ _ => execFbRead_of_capacity_le⟩

/-- The buffer holds `bytes` as the frame so far: from offset 0, in order, and complete exactly at `CAPACITY`. -/
structure HoldsFrame (s : State) (bytes : List Byte) : Prop where
  cursor : s.cursor = bytes.length
  ready : s.ready = decide (bytes.length = s.capacity)
  stored : ∀ k, k < bytes.length → byteAt s k = bytes[k]?

variable {bytes : List Byte}

/-- An open buffer at cursor 0 holds nothing of a frame. -/
theorem HoldsFrame.nil (hv : s.params.valid = true) (hready : s.ready = false) (hcursor : s.cursor = 0) :
    HoldsFrame s [] where
  cursor := hcursor
  ready := by
    have hpos : 0 < s.capacity := capacity_pos hv
    rw [hready, List.length_nil, decide_eq_false hpos.ne]
  stored _ hk := absurd hk (Nat.not_lt_zero _)

/-- With room left, the buffer is the receiver's. -/
theorem HoldsFrame.bufferOpen (h : HoldsFrame s bytes) (hroom : bytes.length < s.capacity) :
    bufferClosed s = false :=
  bufferClosed_eq_false.mpr ⟨by rw [h.ready, decide_eq_false hroom.ne], by rwa [h.cursor]⟩

/-- A data byte goes to the end of the frame so far (R39, R80). -/
theorem HoldsFrame.append_byte {b : Byte} (h : HoldsFrame s bytes) (hroom : bytes.length < s.capacity)
    (hdata : b ≠ s.params.sentinel) : HoldsFrame (receive s b) (bytes ++ [b]) := by
  rw [receive_data (h.bufferOpen hroom) hdata, h.cursor]
  refine ⟨by simp, by simp, fun k hk => ?_⟩
  by_cases hlast : k = bytes.length
  · simp [byteAt, hlast]
  · have hk' : k < bytes.length := by
      rw [List.length_append, List.length_singleton] at hk
      omega
    rw [List.getElem?_append_left hk', ← h.stored k hk']
    exact Memory.read_write_other _ _ hlast

/-- Data bytes that fit go to the end of the frame so far, in arrival order. -/
theorem HoldsFrame.append {more : List Byte} (h : HoldsFrame s bytes)
    (hroom : bytes.length + more.length ≤ s.capacity) (hdata : ∀ b ∈ more, b ≠ s.params.sentinel) :
    HoldsFrame (more.foldl receive s) (bytes ++ more) := by
  induction more generalizing s bytes with
  | nil => simpa using h
  | cons b more ih =>
    rw [List.length_cons] at hroom
    have hfirst := h.append_byte (by omega) (hdata b List.mem_cons_self)
    have hrest := ih hfirst (by simp; omega) fun c hc => by
      simpa using hdata c (List.mem_cons_of_mem b hc)
    simpa using hrest

/-- Settles O45: the stream by `run_feed`, from a buffer that holds the empty frame. -/
theorem dataBytesAreStoredInArrivalOrder : Obligations.DataBytesAreStoredInArrivalOrder := by
  intro s bytes rest hv hready hcursor hroom hdata hq
  have hframe : HoldsFrame (bytes.foldl receive s) bytes :=
    (HoldsFrame.nil hv hready hcursor).append (by simpa using hroom) hdata
  have hcapacity : (bytes.foldl receive s).capacity = s.capacity := foldl_receive_capacity bytes s
  exact ⟨_, run_feed hv hq, rfl, hframe.cursor, hcapacity ▸ hframe.ready, hframe.stored⟩

end Sys2Proof.Machine
end

section
/-! The decoder and the encoder (R58, R65, R77): what a request decodes to, read back, is the request. -/

namespace Sys2Proof.Machine

variable {p : Params} {sel : Selection} {r : Request} {i : Instr}

/-- The ownership test of R77 comes first. -/
@[simp] theorem decodeByte_closed (p : Params) (b : Byte) : decodeByte p true b = .rxDrop b := rfl

/-- An open buffer takes the sentinel as RX_SENTINEL. -/
theorem decodeByte_open_sentinel {b : Byte} (h : b = p.sentinel) : decodeByte p false b = .rxSentinel b := by
  simp [decodeByte, classify, h]

/-- An open buffer takes every other byte as RX_DATA. -/
theorem decodeByte_open_data {b : Byte} (h : b ≠ p.sentinel) : decodeByte p false b = .rxData b := by
  simp [decodeByte, classify, h]

/-- The operation that a delivered byte selects carries that byte. -/
theorem encode_decodeByte (p : Params) (closed : Bool) (b : Byte) : encode (decodeByte p closed b) = .rx [b] := by
  cases closed with
  | true => rfl
  | false =>
    by_cases hb : b = p.sentinel
    · rw [decodeByte_open_sentinel hb]; rfl
    · rw [decodeByte_open_data hb]; rfl

/-- The operation that a delivered byte selects is the state's. -/
theorem selectedBy_decodeByte (p : Params) (sel : Selection) (b : Byte) :
    (decodeByte p sel.closed b).selectedBy sel = true := by
  cases hclosed : sel.closed with
  | true => exact hclosed
  | false =>
    by_cases hb : b = p.sentinel
    · rw [decodeByte_open_sentinel hb]; simp [Instr.selectedBy, hclosed]
    · rw [decodeByte_open_data hb]; simp [Instr.selectedBy, hclosed]

/-- A well-formed operation that the state selects is read back from the request that carries it: by R77's tests
for a byte of the receiver's, by the gate's flag for a submission, by R99's condition for Display's return. -/
theorem decode_encode (hw : i.wf p = true) (hsel : i.selectedBy sel = true) :
    decode p sel (encode i) = .ok i := by
  cases i with
  | rxData b =>
    have hopen : sel.closed = false := by simpa [Instr.selectedBy] using hsel
    rw [encode, decode, hopen, decodeByte_open_data (of_decide_eq_true hw)]
  | rxSentinel b =>
    have hopen : sel.closed = false := by simpa [Instr.selectedBy] using hsel
    rw [encode, decode, hopen, decodeByte_open_sentinel (of_decide_eq_true hw)]
  | rxDrop b =>
    have hclosed : sel.closed = true := hsel
    rw [encode, decode, hclosed, decodeByte_closed]
  | drawDone =>
    have hreturns : sel.stalled = false := by simpa [Instr.selectedBy] using hsel
    simp [encode, decode, hreturns]
  | tgSubmitAccepted x =>
    have hidle : sel.busy = false := by simpa [Instr.selectedBy] using hsel
    simp [encode, decode, hidle]
  | tgSubmitBlocked x =>
    have hbusy : sel.busy = true := hsel
    simp [encode, decode, hbusy]
  | _ => rfl

/-- Settles O25, by `decode_encode`. -/
theorem decodeOfEncode : Obligations.DecodeOfEncode := fun _ _ _ => decode_encode

/-- What a submission decodes to: the gate's flag alone decides. -/
theorem decode_tgSubmit_eq_ok {x : Payload} (h : decode p sel (.tgSubmit x) = .ok i) :
    (sel.busy = false ∧ i = .tgSubmitAccepted x) ∨ (sel.busy = true ∧ i = .tgSubmitBlocked x) := by
  cases hbusy : sel.busy with
  | false => exact .inl ⟨rfl, by simpa [decode, hbusy] using h.symm⟩
  | true => exact .inr ⟨rfl, by simpa [decode, hbusy] using h.symm⟩

/-- Display's return decodes only with nothing of the draw stalled (log 8). -/
theorem decode_drawDone_eq_ok (h : decode p sel .drawDone = .ok i) : sel.stalled = false ∧ i = .drawDone := by
  cases hstalled : sel.stalled with
  | false => exact ⟨rfl, by simpa [decode, hstalled] using h.symm⟩
  | true => simp [decode, hstalled] at h

/-- Settles O26, over the requests; a submission alone can be ill-formed, by its payload's width. -/
theorem encodeOfDecode : Obligations.EncodeOfDecode := by
  intro p sel r i h
  cases r with
  | rx bytes =>
    match bytes with
    | [] => cases h; exact ⟨rfl, rfl, .inl rfl⟩
    | [b] =>
      cases h
      exact ⟨encode_decodeByte p sel.closed b, selectedBy_decodeByte p sel b, .inl (decodeByte_wf p sel.closed b)⟩
    | _ :: _ :: _ => cases h
  | drawDone =>
    obtain ⟨hstalled, rfl⟩ := decode_drawDone_eq_ok h
    exact ⟨rfl, by simp [Instr.selectedBy, hstalled], .inl rfl⟩
  | tgSubmit x =>
    have hfits : p.fitsWord x = true ∨ ∃ y, Request.tgSubmit x = .tgSubmit y ∧ p.fitsWord y = false :=
      (Bool.eq_false_or_eq_true (p.fitsWord x)).imp_right fun hwide => ⟨x, rfl, hwide⟩
    obtain ⟨hbusy, rfl⟩ | ⟨hbusy, rfl⟩ := decode_tgSubmit_eq_ok h
    · exact ⟨rfl, by simp [Instr.selectedBy, hbusy], hfits⟩
    · exact ⟨rfl, hbusy, hfits⟩
  | _ => cases h; exact ⟨rfl, rfl, .inl rfl⟩

/-- A request without an operation delivers two bytes or more (log 19), or is a return that Display withholds
(log 8); every other request has one. -/
theorem exists_decode_error_iff : (∃ e, decode p sel r = .error e) ↔
    (∃ b c rest, r = .rx (b :: c :: rest)) ∨ (r = .drawDone ∧ sel.stalled = true) := by
  cases r with
  | rx bytes =>
    match bytes with
    | [] => simp [decode]
    | [b] => simp [decode]
    | b :: c :: rest => simp [decode]
  | drawDone => cases hstalled : sel.stalled <;> simp [decode, hstalled]
  | _ => simp [decode]

/-- Settles O24: the four words by evaluation, the requests without an operation by their lemma. -/
theorem decodedWords : Obligations.DecodedWords :=
  ⟨by decide, by decide, by decide, by decide, fun _ _ _ => exists_decode_error_iff⟩

end Sys2Proof.Machine
end

section
/-! The wire map of R65: its rows are ranges of byte values, one after the other. -/

namespace Sys2Proof.Machine

/-- A row's mask is a run of high bits, so the row matches the range of bytes that begins at its pattern and is as
long as the mask leaves bytes free (R65, by enumeration). -/
theorem rowMatches_eq_inRange : ∀ r ∈ wireTable, ∀ b : Byte,
    rowMatches b r = decide (r.pattern.toNat ≤ b.toNat ∧ b.toNat < r.pattern.toNat + (256 - r.mask.toNat)) := by
  decide

/-- How many of the first `n` numbers stand in a range. -/
theorem length_filter_range_inRange (lo hi n : Nat) :
    ((List.range n).filter fun k => decide (lo ≤ k ∧ k < hi)).length = min hi n - lo := by
  induction n with
  | zero => simp
  | succ n ih =>
    rw [List.range_succ, List.filter_append, List.length_append, ih]
    by_cases hin : lo ≤ n ∧ n < hi
    · simp [hin]; omega
    · simp [hin]; omega

/-- A row matches as many bytes as its mask leaves free. -/
theorem length_filter_rowMatches {r : WireRow} (hr : r ∈ wireTable) :
    ((List.range 256).filter fun n => rowMatches (BitVec.ofNat 8 n) r).length = 256 - r.mask.toNat := by
  have hmatches : ∀ n ∈ List.range 256, rowMatches (BitVec.ofNat 8 n) r =
      decide (r.pattern.toNat ≤ n ∧ n < r.pattern.toNat + (256 - r.mask.toNat)) := by
    intro n hn
    have hn' : n % 2 ^ 8 = n := Nat.mod_eq_of_lt (List.mem_range.mp hn)
    rw [rowMatches_eq_inRange r hr, BitVec.toNat_ofNat, hn']
  have hrange : ∀ r ∈ wireTable, r.pattern.toNat ≤ r.mask.toNat ∧ r.mask.toNat ≤ 256 := by decide
  have hends := hrange r hr
  rw [List.filter_congr hmatches, length_filter_range_inRange]
  omega

/-- Each byte stands in the range of one row (R65, by enumeration). -/
theorem length_filter_wireTable : ∀ b : Byte, (wireTable.filter (rowMatches b)).length = 1 := by decide

/-- A row gives the class of every byte in its range (R65, by enumeration). -/
theorem cls_of_rowMatches :
    ∀ b : Byte, ∀ r ∈ wireTable, rowMatches b r = true → r.cls = classify Params.default b := by
  decide

/-- The class is equality with the sentinel, whichever it is (R57). -/
theorem classify_eq_sentinel_iff (p : Params) (b : Byte) : classify p b = .sentinel ↔ b = p.sentinel := by
  simp [classify]

/-- Settles O23: the rows' sizes from their masks, the rest by its lemma. -/
theorem wireMapPartitionsBytes : Obligations.WireMapPartitionsBytes := by
  refine ⟨length_filter_wireTable, ?_, cls_of_rowMatches, classify_eq_sentinel_iff, decodeByte_closed⟩
  rw [List.map_congr_left fun r hr => length_filter_rowMatches hr]
  decide

end Sys2Proof.Machine
end

section
/-! Where each operation is enabled (R58, R77), held against its outcomes: what is not enabled is refused. -/

namespace Sys2Proof.Machine

variable {s t : State} {i : Instr}

/-- A byte is lost where the ownership test of R77 says so; for a legal cursor that is R84's precondition (log 5). -/
theorem closed_iff_of_cursor_le (h : s.cursor ≤ s.capacity) :
    (s.ready = true ∨ s.capacity ≤ s.cursor) ↔ (s.ready = true ∨ s.cursor = s.capacity) := by
  have : s.capacity ≤ s.cursor ↔ s.cursor = s.capacity := by omega
  rw [this]

/-- Where its rule enables an operation, it has an outcome. -/
theorem OpStep.of_enabled (hcursor : s.cursor ≤ s.capacity) (h : Enabled s i) : ∃ t, OpStep s i t := by
  cases i with
  | rxData b => obtain ⟨hready, hlt, hdata⟩ := h; exact ⟨_, .rxData hready hlt hdata⟩
  | rxSentinel b => obtain ⟨hready, hlt, hsent⟩ := h; exact ⟨_, .rxSentinel hready hlt hsent⟩
  | rxDrop b => exact ⟨s, .rxDrop ((closed_iff_of_cursor_le hcursor).mpr h)⟩
  | rxNone => exact ⟨s, .rxNone⟩
  | dpPoll =>
    cases hready : s.ready with
    | true => exact ⟨_, .dpPollStartsDraw h hready⟩
    | false => exact ⟨_, .dpPollFindsNone h hready⟩
  | fbRead off =>
    obtain ⟨hphase, hready, hlt, hvalue⟩ := h
    obtain ⟨v, hv⟩ := Option.ne_none_iff_exists'.mp hvalue
    exact ⟨_, .fbRead hphase hready hlt hv⟩
  | drawDone => exact ⟨_, .drawDone h⟩
  | dpRelease => exact ⟨_, .dpRelease h⟩
  | tgSubmitAccepted x => exact ⟨_, .tgSubmitAccepted h⟩
  | tgSubmitBlocked x => exact ⟨_, .tgSubmitBlocked h⟩
  | tgQuery => exact ⟨_, .tgQuery⟩
  | busComplete => exact ⟨_, .busComplete h⟩
  | tgIrq => obtain ⟨harmed, hidle⟩ := h; exact ⟨_, .tgIrq harmed hidle⟩
  | reset => exact ⟨_, .reset⟩

/-- An operation that has an outcome was enabled. -/
theorem OpStep.enabled (hcursor : s.cursor ≤ s.capacity) (h : OpStep s i t) : Enabled s i := by
  cases h with
  | rxData hready hlt hdata => exact ⟨hready, hlt, hdata⟩
  | rxSentinel hready hlt hsent => exact ⟨hready, hlt, hsent⟩
  | rxDrop hclosed => exact (closed_iff_of_cursor_le hcursor).mp hclosed
  | rxNone | tgQuery | reset => trivial
  | dpPollStartsDraw hphase _ | dpPollFindsNone hphase _ => exact hphase
  | @fbRead off v hphase hready hlt hv => exact ⟨hphase, hready, hlt, Option.ne_none_iff_exists'.mpr ⟨v, hv⟩⟩
  | drawDone hphase => exact hphase
  | dpRelease hphase => exact hphase
  | tgSubmitAccepted hbusy => exact hbusy
  | tgSubmitBlocked hbusy => exact hbusy
  | busComplete hactive => exact hactive
  | tgIrq harmed hidle => exact ⟨harmed, hidle⟩

/-- A guarded operation faults only where its condition holds and the operation faults. -/
theorem enabledWhen_ne_fault {c : Bool} {r : Refusal} {op : State → Result} {f : Fault}
    (h : c = true → op s ≠ .fault f) : enabledWhen c r op s ≠ .fault f := by
  cases c with
  | true => exact h rfl
  | false => exact nofun

/-- With the buffer open, the receiver's store is in range. -/
theorem memWrite_of_open (b : Byte) (h : (!bufferClosed s) = true) :
    memWrite (storeOffset s) b s = .next (s.setStorage (Memory.write s.storage (storeOffset s) b)) := by
  obtain ⟨-, hlt⟩ := bufferClosed_eq_false.mp (by simpa using h)
  exact memWrite_inRange b hlt

/-- An in-range read of the frame answers or is refused. -/
theorem readFrame_ne_fault {off : Nat} {f : Fault} (hlt : off < s.capacity) : readFrame off s ≠ .fault f := by
  cases hv : byteAt s off with
  | none => rw [readFrame_of_byteAt_none hlt hv]; exact nofun
  | some v => rw [readFrame, memRead_inRange hlt hv]; exact nofun

/-- No operation faults, in any state (R118): the guards of the receiver's stores and of the read keep them in
range, and no other operation reaches the storage. -/
theorem exec_ne_fault (i : Instr) (s : State) (f : Fault) : exec i s ≠ .fault f := by
  cases i with
  | rxData b =>
    refine enabledWhen_ne_fault fun hopen => enabledWhen_ne_fault fun _ => ?_
    rw [activation_eq, storeData, memWrite_of_open b hopen]
    exact nofun
  | rxSentinel b =>
    refine enabledWhen_ne_fault fun hopen => enabledWhen_ne_fault fun _ => ?_
    rw [activation_eq, storeSentinel, memWrite_of_open b hopen]
    exact nofun
  | fbRead off =>
    exact enabledWhen_ne_fault fun _ => enabledWhen_ne_fault fun _ => enabledWhen_ne_fault fun hlt =>
      readFrame_ne_fault (of_decide_eq_true hlt)
  | dpPoll =>
    refine enabledWhen_ne_fault fun _ => ?_
    unfold poll
    split <;> exact nofun
  | rxNone | tgQuery | reset => exact nofun
  | _ => exact enabledWhen_ne_fault fun _ => nofun

/-- An operation that has no outcome is refused. -/
theorem exec_refused_of_no_opStep (h : ∀ t, ¬ OpStep s i t) : ∃ r, exec i s = .refused r := by
  cases hexec : exec i s with
  | next t => exact absurd (.of_exec hexec) (h t)
  | fault f => exact absurd hexec (exec_ne_fault i s f)
  | refused r => exact ⟨r, rfl⟩

/-- Settles O30: an operation has an outcome exactly where it is enabled. -/
theorem stepsExactlyWhenEnabled : Obligations.StepsExactlyWhenEnabled := by
  intro s i hcursor
  refine ⟨fun h => ?_, fun h => exec_refused_of_no_opStep fun t ht => h (ht.enabled hcursor)⟩
  obtain ⟨t, ht⟩ := OpStep.of_enabled hcursor h
  exact ⟨t, ht.exec_eq⟩

end Sys2Proof.Machine
end

section
/-! What one request does, and a repetition until a condition (R71). -/

namespace Sys2Proof.Machine

variable {p : Params} {sel : Selection} {r : Request} {i : Instr} {s t : State} {met : Returned → Bool}
  {waits : List (List Interruption)} {k : Stretch}

/-- A request that was answered was answered by the operation it decodes to, noted and run. -/
theorem ask_next (h : ask r s = some t) :
    ∃ i, decode s.params (selection s) r = .ok i ∧ OpStep (noteDraw i s) i t := by
  obtain ⟨-, ⟨hnil, -⟩ | ⟨i, r', rest, hcons, hdecode, -, hexec⟩⟩ := step_next (ask_eq_some.mp h)
  · cases hnil
  · cases hcons
    exact ⟨i, hdecode, .of_exec hexec⟩

/-- What was asked and answered is answered alike where it stands at the head of a schedule. -/
theorem step_of_ask (q : List Request) (h : ask r s = some t) :
    step (s.setInbox (r :: q)) = .next (t.setInbox q) :=
  step_setInbox q (ask_eq_some.mp h)

/-- Requests that were answered in turn are a run, whatever the schedule holds after them. -/
theorem run_of_askAll {q : List Request} (rest : List Request) (h : askAll q s = some t) :
    run q.length (s.setInbox (q ++ rest)) = .next (t.setInbox rest) := by
  induction q generalizing s with
  | nil => cases h; rfl
  | cons r q ih =>
    obtain ⟨u, hu, hrest⟩ := askAll_cons_eq_some.mp h
    rw [List.length_cons, List.cons_append, run_succ_of_step _ (step_of_ask _ hu), ih hrest]

/-- The last of a list of requests that were answered in turn. -/
theorem askAll_append_singleton {q : List Request} (h : askAll (q ++ [r]) s = some t) :
    ∃ u, askAll q s = some u ∧ ask r u = some t := by
  rw [askAll_append] at h
  obtain ⟨u, hu, hlast⟩ := Option.bind_eq_some_iff.mp h
  obtain ⟨t', ht', hnil⟩ := askAll_cons_eq_some.mp hlast
  cases hnil
  exact ⟨u, hu, ht'⟩

/-- What a repetition asked was answered in turn, and led to where the repetition ended. -/
theorem askAll_of_repeatUntil (h : repeatUntil met r waits s = some k) : askAll k.asked s = some k.final := by
  obtain ⟨q, u, hasked, hq, hlast, -⟩ := repeatUntil_eq_some h
  rw [hasked, askAll_append, hq]
  exact askAll_cons_eq_some.mpr ⟨k.final, hlast, rfl⟩

/-- The condition of a repetition speaks of the value returned. -/
theorem answered_eq_true_iff : answered met s = true ↔ ∃ v, s.returned = some v ∧ met v = true := by
  simp [answered, Option.any_eq_true]

/-- The first attempt that meets the condition ends the repetition. -/
theorem repeatUntil_of_answered (waits : List (List Interruption)) (h : ask r s = some t)
    (hmet : answered met t = true) : repeatUntil met r waits s = some ⟨[r], t⟩ := by
  cases waits <;> simp [repeatUntil, h, hmet]

/-- What every interruption keeps, and every attempt that does not meet the condition, holds where the last attempt
is made. -/
theorem repeatUntil_keeps {P : State → Prop}
    (hattempt : ∀ s t, P s → ask r s = some t → answered met t = false → P t)
    (hother : ∀ (w : Interruption) (s t : State), P s → ask w.request s = some t → P t)
    (hs : P s) (h : repeatUntil met r waits s = some k) :
    ∃ u, P u ∧ ask r u = some k.final ∧ answered met k.final = true := by
  induction waits generalizing s k with
  | nil =>
    obtain ⟨t, ht, h⟩ := Option.bind_eq_some_iff.mp h
    split at h
    · next hmet => cases h; exact ⟨s, hs, ht, hmet⟩
    · cases h
  | cons w waits ih =>
    obtain ⟨t, ht, h⟩ := Option.bind_eq_some_iff.mp h
    split at h
    · next hmet => cases h; exact ⟨s, hs, ht, hmet⟩
    · next hmet =>
      obtain ⟨u, hu, h⟩ := Option.bind_eq_some_iff.mp h
      obtain ⟨k', hk', rfl⟩ := Option.map_eq_some_iff.mp h
      have ht' : P t := hattempt s t hs ht (Bool.eq_false_iff.mpr hmet)
      have hu' : P u := by
        refine askAll_keeps (fun r' hr' => ?_) ht' hu
        obtain ⟨i, -, rfl⟩ := List.mem_map.mp hr'
        exact hother i
      have hlast := ih hu' hk'
      exact hlast

end Sys2Proof.Machine
end

section
/-! Where the pseudo-operations of R71 end: SUBMIT_BLOCKING, WAIT_IDLE and PUMP_ITERATION. -/

namespace Sys2Proof.Machine

variable {p : Params} {sel : Selection} {r : Request} {i : Instr} {s t : State} {waits : List (List Interruption)}
  {k : Stretch}

/-- Only the main loop's operations put anything out (R94, R107). -/
theorem OpStep.emitted_eq (h : OpStep s i t) (hi : i.context ≠ .mainLoop) : t.emitted = s.emitted := by
  cases h with
  | dpPollStartsDraw | tgSubmitAccepted => exact absurd rfl hi
  | _ => rfl

/-- An operation is performed by the agent that takes up its request (R9, R58). -/
theorem agent_of_decode (h : decode p sel r = .ok i) : i.agent = r.agent.performer := by
  obtain ⟨rfl, -, -⟩ := encodeOfDecode p sel r i h
  cases i <;> rfl

/-- What may step between two operations of the main loop is none of the main loop's (R135). -/
theorem Interruption.context_ne_mainLoop (w : Interruption) : w.request.agent.performer.context ≠ .mainLoop := by
  cases w <;> exact nofun

/-- An interruption puts nothing out. -/
theorem ask_interruption_emitted (w : Interruption) (h : ask w.request s = some t) : t.emitted = s.emitted := by
  obtain ⟨i, hdecode, hop⟩ := ask_next h
  refine hop.emitted_eq ?_
  rw [Instr.context, agent_of_decode hdecode]
  exact w.context_ne_mainLoop

/-- An attempt of TG_SUBMIT is accepted and puts its payload out (R107), or stalls and puts nothing out (R108). -/
theorem ask_tgSubmit {x : Payload} (h : ask (.tgSubmit x) s = some t) :
    (t.returned = some .accepted ∧ t.busy = true ∧ t.busActive = true ∧ t.emitted = s.emitted ++ [.busStart x]) ∨
      (t.returned = some .stalled ∧ t.emitted = s.emitted) := by
  obtain ⟨i, hdecode, hop⟩ := ask_next h
  obtain ⟨-, rfl⟩ | ⟨-, rfl⟩ := decode_tgSubmit_eq_ok hdecode
  · cases hop
    exact .inl ⟨rfl, rfl, rfl, rfl⟩
  · cases hop
    exact .inr ⟨rfl, rfl⟩

/-- A query returns the gate's flag and leaves it (R109). -/
theorem ask_tgQuery (h : ask .tgQuery s = some t) : t.returned = some (.bit t.busy) := by
  obtain ⟨i, hdecode, hop⟩ := ask_next h
  cases hdecode
  cases hop
  rfl

/-- A release leaves the pump polling and the buffer the receiver's, at offset 0 (R98). -/
theorem ask_dpRelease (h : ask .dpRelease s = some t) : t.phase = .poll ∧ t.ready = false ∧ t.cursor = 0 := by
  obtain ⟨i, hdecode, hop⟩ := ask_next h
  cases hdecode
  cases hop
  exact ⟨rfl, rfl, rfl⟩

/-- SUBMIT_BLOCKING ends with its payload accepted: until then neither its attempts nor what comes between them put
anything out. -/
theorem submitBlocking_ends {x : Payload} (h : submitBlocking x waits s = some k) :
    k.final.busy = true ∧ k.final.busActive = true ∧ k.final.emitted = s.emitted ++ [.busStart x] := by
  obtain ⟨u, hu, hlast, hmet⟩ := repeatUntil_keeps (P := fun u => u.emitted = s.emitted)
    (fun u t hu ht hmet => by
      obtain ⟨hret, -⟩ | ⟨-, hemitted⟩ := ask_tgSubmit ht
      · simp [answered, hret] at hmet
      · exact hemitted.trans hu)
    (fun w u t hu ht => (ask_interruption_emitted w ht).trans hu) rfl h
  obtain ⟨-, hbusy, hactive, hemitted⟩ | ⟨hret, -⟩ := ask_tgSubmit hlast
  · exact ⟨hbusy, hactive, by rw [hemitted, hu]⟩
  · simp [answered, hret] at hmet

/-- WAIT_IDLE ends with the gate idle: its last query returned the flag as 0. -/
theorem waitIdle_ends (h : waitIdle waits s = some k) : k.final.busy = false := by
  obtain ⟨-, u, -, -, hlast, hmet⟩ := repeatUntil_eq_some h
  simpa [answered, ask_tgQuery hlast] using hmet

/-- PUMP_ITERATION is its repeated poll, then the draw and what ends it, answered in turn. -/
theorem pumpIteration_eq_some {draw : List DrawStep} {between : List Interruption}
    (h : pumpIteration waits draw between s = some k) :
    ∃ k', repeatUntil (fun v => decide (v = .bit true)) .dpPoll waits s = some k' ∧
      k.asked = k'.asked ++ drawAndRelease draw between ∧
      askAll (drawAndRelease draw between) k'.final = some k.final := by
  obtain ⟨k', hk', h⟩ := Option.bind_eq_some_iff.mp h
  obtain ⟨t, ht, rfl⟩ := Option.map_eq_some_iff.mp h
  exact ⟨k', hk', rfl, ht⟩

/-- What PUMP_ITERATION asked was answered in turn. -/
theorem askAll_of_pumpIteration {draw : List DrawStep} {between : List Interruption}
    (h : pumpIteration waits draw between s = some k) : askAll k.asked s = some k.final := by
  obtain ⟨k', hpoll, hasked, hdraw⟩ := pumpIteration_eq_some h
  rw [hasked, askAll_append, askAll_of_repeatUntil hpoll]
  exact hdraw

/-- PUMP_ITERATION ends with the release, which is the last thing it asks. -/
theorem pumpIteration_ends {draw : List DrawStep} {between : List Interruption}
    (h : pumpIteration waits draw between s = some k) :
    k.final.phase = .poll ∧ k.final.ready = false ∧ k.final.cursor = 0 := by
  obtain ⟨k', -, -, hdraw⟩ := pumpIteration_eq_some h
  obtain ⟨u, -, hrelease⟩ := askAll_append_singleton hdraw
  exact ask_dpRelease hrelease

/-- Settles O59: each expansion is a run, and ends as its last request leaves the state. -/
theorem pseudoOperationsEndWhereTheirUntilIsMet : Obligations.PseudoOperationsEndWhereTheirUntilIsMet := by
  intro s
  refine ⟨fun met r waits k rest h => ⟨run_of_askAll rest (askAll_of_repeatUntil h), ?_⟩,
    fun met r waits t v ht hv hmet => repeatUntil_of_answered waits ht (answered_eq_true_iff.mpr ⟨v, hv, hmet⟩),
    fun x waits k => submitBlocking_ends, fun waits k => waitIdle_ends,
    fun waits draw between k rest h => ⟨run_of_askAll rest (askAll_of_pumpIteration h), pumpIteration_ends h⟩⟩
  obtain ⟨-, -, -, -, -, hmet⟩ := repeatUntil_eq_some h
  exact answered_eq_true_iff.mp hmet

end Sys2Proof.Machine
end

section
/-! The receiver's operations (R79 to R84), each from its outcome in `OpStep`, and the activation that the step takes
for one of them (R77, R85). -/

namespace Sys2Proof.Machine

variable {s : State} {rest : List Request}

/-- Settles O1: the outcome of RX_DATA, one write at the cursor. -/
theorem rxDataStoresAndAdvances : Obligations.RxDataStoresAndAdvances := fun _ _ hready hlt hdata =>
  ⟨_, (OpStep.rxData hready hlt hdata).exec_eq, Memory.read_write_same _ _ _,
    fun _ => Memory.read_write_other _ _, rfl, rfl, rfl, ⟨rfl, rfl, rfl⟩, ⟨rfl, rfl, rfl, rfl, rfl, rfl⟩⟩

/-- Settles O2: the outcome of RX_SENTINEL, one write at the cursor. -/
theorem rxSentinelRestartsFrame : Obligations.RxSentinelRestartsFrame := by
  rintro s _ hready hlt rfl
  exact ⟨_, (OpStep.rxSentinel hready hlt rfl).exec_eq, Memory.read_write_same _ _ _,
    fun _ => Memory.read_write_other _ _, rfl, hready, rfl, ⟨rfl, rfl, rfl⟩, ⟨rfl, rfl, rfl, rfl, rfl, rfl⟩⟩

/-- Settles O3: the last slot is below `CAPACITY`, so RX_SENTINEL takes the byte as it does anywhere (R83). -/
theorem sentinelInLastSlotCompletesNoFrame : Obligations.SentinelInLastSlotCompletesNoFrame := by
  intro s hready hlast
  obtain ⟨t, hexec, hstored, -, hcursor, hlow, -⟩ := rxSentinelRestartsFrame s _ hready (by omega) rfl
  have hslot : s.capacity - 1 = storeOffset s := by rw [storeOffset]; omega
  exact ⟨t, hexec, hslot ▸ hstored, hcursor, hlow⟩

/-- Settles O4: the outcome of RX_DROP, which asks the ownership test only. -/
theorem rxDropChangesNothing : Obligations.RxDropChangesNothing := fun _ _ hclosed =>
  (OpStep.rxDrop (hclosed.imp_right Eq.ge)).exec_eq

/-- Settles O5: the outcome of RX_NONE, which asks nothing. -/
theorem rxNoneChangesNothing : Obligations.RxNoneChangesNothing := fun _ => OpStep.rxNone.exec_eq

/-- The step on an activation that finds no byte is RX_NONE (R79). -/
theorem step_of_no_byte (hv : s.params.valid = true) (hq : s.inbox = .rx [] :: rest) :
    step s = exec .rxNone (s.setInbox rest) :=
  step_of_decode hv hq rfl rfl

/-- Settles O6: the tests of `decodeByte`, ownership first; for a legal cursor that one is R77's own (log 5). -/
theorem deliveredByteDispatch : Obligations.DeliveredByteDispatch := by
  intro s rest hv hcursor
  refine ⟨step_of_no_byte hv, fun b hq => ?_⟩
  rw [step_of_byte hv hq]
  have hclosed : bufferClosed s = true ↔ s.ready = true ∨ s.cursor = s.capacity :=
    bufferClosed_eq_true.trans (closed_iff_of_cursor_le hcursor)
  split
  · next h => rw [hclosed.mpr h, decodeByte_closed]
  · next h =>
    rw [Bool.eq_false_iff.mpr (mt hclosed.mp h)]
    split
    · next hb => rw [decodeByte_open_sentinel hb]
    · next hb => rw [decodeByte_open_data hb]

/-- Settles O7: without a byte by RX_NONE, with one by whichever outcome it is received with. -/
theorem everyDeliveredByteCompletes : Obligations.EveryDeliveredByteCompletes := by
  intro s bytes rest hv hlength hq
  match bytes with
  | [] => exact ⟨_, (step_of_no_byte hv hq).trans OpStep.rxNone.exec_eq, rfl⟩
  | [b] => exact ⟨_, step_eq_receive hv hq, rfl⟩
  | _ :: _ :: _ => simp at hlength

/-- Settles O48: received by an open buffer the sentinel takes the cursor to 0; a closed one is the consumer's. -/
theorem sentinelResetsLogicalWriteOffset : Obligations.SentinelResetsLogicalWriteOffset := by
  intro s rest hv hcursor hfull hq
  refine ⟨_, step_eq_receive hv hq, ?_⟩
  cases hready : s.ready with
  | true =>
    rw [receive_of_closed _ (bufferClosed_eq_true.mpr (.inl hready))]
    exact ⟨if_pos hready, nofun, fun _ => ⟨rfl, hready⟩⟩
  | false =>
    have hne : s.cursor ≠ s.capacity := fun h => Bool.noConfusion ((hfull h).symm.trans hready)
    rw [receive_sentinel (bufferClosed_eq_false.mpr ⟨hready, by omega⟩)]
    exact ⟨ite_self 0, fun _ => ⟨rfl, hready⟩, nofun⟩

/-- Settles O22: the launch state holds the empty frame, and the byte goes to the end of it. -/
theorem firstByteAfterResetIsAccepted : Obligations.FirstByteAfterResetIsAccepted := by
  intro b hb
  have hv : Params.default.valid = true := by decide
  have hempty : HoldsFrame (State.reset.setInbox [.rx [b]]) [] := .nil hv rfl rfl
  have hframe := hempty.append_byte (b := b) (capacity_pos hv) hb
  have hcapacity : Params.default.capacity = 6144 := by decide
  refine ⟨_, step_eq_receive hv rfl, hframe.stored 0 Nat.one_pos, hframe.cursor, hframe.ready.trans ?_⟩
  rw [receive_capacity]
  exact decide_eq_false (ne_of_lt (hcapacity ▸ by decide : 1 < Params.default.capacity))

end Sys2Proof.Machine
end

section
/-! The receiver's control states, and its table (R86). -/

namespace Sys2Proof.Machine

variable {s : State}

theorem receiverState_fill (hready : s.ready = false) (hlt : s.cursor < s.capacity) :
    receiverState s = some (.fill s.cursor) := if_pos ⟨hready, hlt⟩

theorem receiverState_full (hready : s.ready = true) (hcursor : s.cursor = s.capacity) :
    receiverState s = some .full := by
  simp [receiverState, hready, hcursor]

/-- A buffer that the consumer owns is full (INV1 of R20). -/
theorem Inv.receiverState_of_ready (h : Inv s) (hready : s.ready = true) : receiverState s = some .full :=
  receiverState_full hready (h.readyCursor hready)

/-- The invariant leaves the receiver no other control state than R86's: by INV1 and INV2 the cursor is full exactly
with `ready`. -/
theorem Inv.exists_receiverState (h : Inv s) : ∃ r, receiverState s = some r := by
  cases hready : s.ready with
  | true => exact ⟨_, h.receiverState_of_ready hready⟩
  | false =>
    have hne : s.cursor ≠ s.capacity := fun hc => Bool.noConfusion ((h.cursorReady hc).symm.trans hready)
    exact ⟨_, receiverState_fill hready (lt_of_le_of_ne h.cursorLe hne)⟩

/-- A byte that the ownership test turns away finds the buffer full (INV2 of R21). -/
theorem Inv.ready_of_closed (h : Inv s) (hclosed : s.ready = true ∨ s.capacity ≤ s.cursor) : s.ready = true :=
  hclosed.elim id fun hle => h.cursorReady (le_antisymm h.cursorLe hle)

/-- A data byte in the last slot fills the frame; in any other it moves the receiver on by one (R80). -/
theorem receiverState_after_rxData {m : Memory} (hlt : s.cursor < s.capacity) :
    receiverState (((s.setStorage m).setCursor (s.cursor + 1)).setReady (decide (s.cursor + 1 = s.capacity))) =
      some (if s.cursor + 1 < s.capacity then .fill (s.cursor + 1) else .full) := by
  split
  · next h => exact receiverState_fill (decide_eq_false h.ne) h
  · next h =>
    have hlast : s.cursor + 1 = s.capacity := by omega
    exact receiverState_full (decide_eq_true hlast) hlast

/-- Settles O38: each outcome against its row; the operations of the other agents have the rows that keep both the
control state and the bytes. -/
theorem receiverFollowsItsTable : Obligations.ReceiverFollowsItsTable := by
  intro s t i hs h
  have hpos : 0 < s.capacity := capacity_pos hs.validParams
  cases OpStep.of_exec h with
  | rxData hready hlt _ =>
    exact ⟨_, _, _, receiverState_fill hready hlt, rfl, receiverState_after_rxData hlt,
      Memory.read_write_same _ _ _, fun _ => Memory.read_write_other _ _⟩
  | rxSentinel hready hlt _ =>
    exact ⟨_, _, _, receiverState_fill hready hlt, rfl, receiverState_fill hready hpos,
      Memory.read_write_same _ _ _, fun _ => Memory.read_write_other _ _⟩
  | rxDrop hclosed =>
    have hfull := hs.receiverState_of_ready (hs.ready_of_closed hclosed)
    exact ⟨_, _, _, hfull, rfl, hfull, fun _ => rfl⟩
  | dpRelease hdone =>
    have hready : s.ready = true := hs.drawOwned (by simp [hdone])
    exact ⟨_, _, _, hs.receiverState_of_ready hready, rfl, receiverState_fill rfl hpos, fun _ => rfl⟩
  | reset =>
    obtain ⟨r, hr⟩ := hs.exists_receiverState
    exact ⟨r, _, _, hr, rfl, receiverState_fill rfl hpos, Memory.read_nil⟩
  | _ =>
    obtain ⟨r, hr⟩ := hs.exists_receiverState
    exact ⟨r, r, .none, hr, rfl, hr, fun _ => rfl⟩

end Sys2Proof.Machine
end

section
/-! Streams of bytes: a frame behind its sentinel (R88), one cut short (E6), and bytes that are dropped (R103). -/

namespace Sys2Proof.Machine

variable {s : State} {bytes : List Byte}

/-- A delivered byte writes the frame buffer's own elements and no other field. -/
theorem exists_receive_eq (s : State) (b : Byte) :
    ∃ m k v, receive s b = ((s.setStorage m).setCursor k).setReady v := by
  unfold receive
  split
  · exact ⟨s.storage, s.cursor, s.ready, rfl⟩
  · split
    · exact ⟨_, 0, s.ready, rfl⟩
    · exact ⟨_, _, _, rfl⟩

/-- So does a stream of bytes. -/
theorem exists_foldl_receive_eq (bytes : List Byte) (s : State) :
    ∃ m k v, bytes.foldl receive s = ((s.setStorage m).setCursor k).setReady v := by
  induction bytes generalizing s with
  | nil => exact ⟨s.storage, s.cursor, s.ready, rfl⟩
  | cons b bytes ih =>
    obtain ⟨m, k, v, hb⟩ := exists_receive_eq s b
    obtain ⟨m', k', v', hrest⟩ := ih (receive s b)
    exact ⟨m', k', v', by rw [List.foldl_cons, hrest, hb]; rfl⟩

theorem foldl_receive_params (bytes : List Byte) (s : State) : (bytes.foldl receive s).params = s.params := by
  obtain ⟨m, k, v, h⟩ := exists_foldl_receive_eq bytes s
  rw [h]
  rfl

/-- A closed buffer drops a whole stream (R84). -/
theorem foldl_receive_of_closed (bytes : List Byte) (h : bufferClosed s = true) : bytes.foldl receive s = s := by
  induction bytes with
  | nil => rfl
  | cons b bytes ih => rw [List.foldl_cons, receive_of_closed b h, ih]

/-- Settles O49: `ready` alone closes the buffer, and a closed buffer drops the stream. -/
theorem bytesAreDroppedWhileConsumerOwns : Obligations.BytesAreDroppedWhileConsumerOwns := by
  intro s bytes rest hv hready hq
  rw [run_feed hv hq, foldl_receive_of_closed bytes (bufferClosed_eq_true.mpr (.inl hready))]

/-- Received by an open buffer, the sentinel begins an empty frame, whatever was stored before it (R82). -/
theorem holdsFrame_receive_sentinel (hv : s.params.valid = true) (hopen : bufferClosed s = false) :
    HoldsFrame (receive s s.params.sentinel) [] := by
  obtain ⟨hready, -⟩ := bufferClosed_eq_false.mp hopen
  rw [receive_sentinel hopen]
  exact .nil hv hready rfl

/-- From an open buffer, a sentinel and data bytes that fit leave just these bytes as the frame so far (R88). -/
theorem holdsFrame_foldl_sentinel (hv : s.params.valid = true) (hopen : bufferClosed s = false)
    (hroom : bytes.length ≤ s.capacity) (hdata : ∀ b ∈ bytes, b ≠ s.params.sentinel) :
    HoldsFrame ((s.params.sentinel :: bytes).foldl receive s) bytes :=
  (holdsFrame_receive_sentinel hv hopen).append (by simpa using hroom) (by simpa using hdata)

/-- A frame of `CAPACITY` bytes that the buffer holds is complete. -/
theorem HoldsFrame.ready_of_length_eq (h : HoldsFrame s bytes) (hlength : bytes.length = s.capacity) :
    s.ready = true := by
  rw [h.ready, decide_eq_true hlength]

/-- Before the last of its `CAPACITY` bytes, a frame behind its sentinel is not complete (R88). -/
theorem run_feed_partial_frame {frame : List Byte} {rest : List Request} (hv : s.params.valid = true)
    (hopen : bufferClosed s = false) (hlength : frame.length = s.capacity)
    (hdata : ∀ b ∈ frame, b ≠ s.params.sentinel) (hq : s.inbox = feed (s.params.sentinel :: frame) ++ rest)
    {n : Nat} (hn : n < s.capacity) : ∃ u, run (n + 1) s = .next u ∧ u.ready = false := by
  have htaken : (frame.take n).length = n := List.length_take_of_le (by omega)
  have hq' : s.inbox = feed (s.params.sentinel :: frame.take n) ++ (feed (frame.drop n) ++ rest) := by
    rw [hq, ← List.append_assoc, ← feed_append, List.cons_append, List.take_append_drop]
  have hframe := holdsFrame_foldl_sentinel (bytes := frame.take n) hv hopen (by omega)
    fun b hb => hdata b (List.mem_of_mem_take hb)
  have hrun := run_feed hv hq'
  rw [List.length_cons, htaken] at hrun
  refine ⟨_, hrun, hframe.ready.trans ?_⟩
  rw [foldl_receive_capacity, htaken, decide_eq_false hn.ne]

/-- Settles O46: the whole stream leaves the frame, every shorter one less than it; an owned buffer drops all. -/
theorem sentinelThenFrameCompletes : Obligations.SentinelThenFrameCompletes := by
  intro s frame rest hv hlength hdata hq
  have hrun := run_feed hv hq
  rw [List.length_cons, hlength] at hrun
  refine ⟨fun hready hlt => ⟨?_, fun n hn => ?_⟩, fun hready => ?_⟩
  · have hframe := holdsFrame_foldl_sentinel hv (bufferClosed_eq_false.mpr ⟨hready, hlt⟩) hlength.le hdata
    have hfull := hframe.ready_of_length_eq (by rw [hlength, foldl_receive_capacity])
    exact ⟨_, hrun, rfl, hfull, hframe.cursor.trans hlength, hlength ▸ hframe.stored⟩
  · cases n with
    | zero => exact ⟨s, rfl, hready⟩
    | succ n => exact run_feed_partial_frame hv (bufferClosed_eq_false.mpr ⟨hready, hlt⟩) hlength hdata hq hn
  · rw [hrun, foldl_receive_of_closed _ (bufferClosed_eq_true.mpr (.inl hready))]

/-- Whatever stream came before, a sentinel that finds the buffer open and data bytes that fit leave just these bytes
as the frame so far. -/
theorem holdsFrame_foldl_append_sentinel {before : List Byte} (hv : s.params.valid = true)
    (hopen : bufferClosed (before.foldl receive s) = false) (hroom : bytes.length ≤ s.capacity)
    (hdata : ∀ b ∈ bytes, b ≠ s.params.sentinel) :
    HoldsFrame ((before ++ s.params.sentinel :: bytes).foldl receive s) bytes := by
  have hparams := foldl_receive_params before s
  rw [List.foldl_append, ← hparams]
  exact holdsFrame_foldl_sentinel (hparams ▸ hv) hopen (by rwa [foldl_receive_capacity]) (hparams ▸ hdata)

/-- Settles O47: the partial frame leaves the buffer open for the sentinel and the frame that follow it. -/
theorem resyncDiscardsPartialFrame : Obligations.ResyncDiscardsPartialFrame := by
  intro s part frame rest hv hready hlt hpart hlength hdata hq
  obtain ⟨hpartData, hframeData⟩ := List.forall_mem_append.mp hdata
  have hcut := holdsFrame_foldl_sentinel hv (bufferClosed_eq_false.mpr ⟨hready, hlt⟩) hpart.le hpartData
  have hopen := hcut.bufferOpen (by rwa [foldl_receive_capacity])
  have hframe := holdsFrame_foldl_append_sentinel hv hopen hlength.le hframeData
  have hfull := hframe.ready_of_length_eq (by rw [hlength, foldl_receive_capacity])
  have hsteps : (s.params.sentinel :: (part ++ s.params.sentinel :: frame)).length = part.length + s.capacity + 2 := by
    simp only [List.length_cons, List.length_append, hlength]
    omega
  have hrun := run_feed hv hq
  rw [hsteps] at hrun
  exact ⟨_, hrun, rfl, hfull, hlength ▸ hframe.stored⟩

end Sys2Proof.Machine
end

section
/-! A frame's way to the display and back (E5): received, polled, read, released. -/

namespace Sys2Proof.Machine

variable {s t : State}

/-- A request that decodes to a well-formed operation with an outcome, once noted, is answered with it. -/
theorem ask_of_opStep {r : Request} {i : Instr} (hv : s.params.valid = true)
    (hd : decode s.params (selection s) r = .ok i) (hw : i.wf s.params = true) (h : OpStep (noteDraw i s) i t) :
    ask r s = some t :=
  ask_eq_some.mpr ((step_of_decode (s := askFirst s r) hv rfl hd hw).trans h.exec_eq)

/-- The state in which a draw has begun: the frame put out, and nothing of the draw stalled (R94, log 22). -/
def beginDraw (s : State) : State :=
  (((s.setDrawHeld []).setPhase .draw).addEmitted (drawStart s)).setReturned (.bit true)

/-- The state in which the draw has ended and the buffer is released (R98, R99). -/
def endDraw (s : State) : State := ((s.setCursor 0).setReady false).setPhase .poll

/-- A poll that finds a complete frame begins a draw, whatever Display had noted before (R94). -/
theorem ask_dpPoll_of_ready (hv : s.params.valid = true) (hphase : s.phase = .poll) (hready : s.ready = true) :
    ask .dpPoll s = some (beginDraw s) := by
  have hnote : noteDraw .dpPoll s = s.setDrawHeld [] := by simp [noteDraw_eq, drawRecord, hready]
  refine ask_of_opStep hv rfl rfl ?_
  rw [hnote]
  exact .dpPollStartsDraw hphase hready

/-- During a draw, in-range reads of bytes that have a value are all answered, and change the returned value only. -/
theorem askAll_reads {offs : List Nat} (hv : s.params.valid = true) (hphase : s.phase = .draw)
    (hready : s.ready = true) (hreads : ∀ off ∈ offs, off < s.capacity ∧ ∃ v, byteAt s off = some v) :
    ∃ v, askAll ((reads offs).map DrawStep.request) s = some { s with returned := v } := by
  induction offs generalizing s with
  | nil => exact ⟨s.returned, rfl⟩
  | cons off offs ih =>
    obtain ⟨⟨hlt, v, hstored⟩, hrest⟩ := List.forall_mem_cons.mp hreads
    have hfirst : ask (.fbRead off) s = some (s.setReturned (.byte v)) :=
      ask_of_opStep hv rfl rfl (.fbRead hphase hready hlt hstored)
    obtain ⟨w, hw⟩ := ih (s := s.setReturned (.byte v)) hv hphase hready hrest
    exact ⟨w, askAll_cons_eq_some.mpr ⟨_, hfirst, hw⟩⟩

/-- A draw of such reads, with nothing of it stalled, runs to the release. -/
theorem askAll_drawAndRelease {offs : List Nat} (hv : s.params.valid = true) (hphase : s.phase = .draw)
    (hready : s.ready = true) (hstalled : s.drawHeld = [])
    (hreads : ∀ off ∈ offs, off < s.capacity ∧ ∃ v, byteAt s off = some v) :
    ∃ v, askAll (drawAndRelease (reads offs) []) s = some (endDraw { s with returned := v }) := by
  obtain ⟨v, hdraw⟩ := askAll_reads hv hphase hready hreads
  have hreturns : Instr.drawDone.selectedBy (selection { s with returned := v }) = true := by
    simp [Instr.selectedBy, selection, displayStalled, hstalled]
  have hdone : ask .drawDone { s with returned := v } = some ({ s with returned := v }.setPhase .done) :=
    ask_of_opStep hv (decode_encode rfl hreturns) rfl (.drawDone hphase)
  have hrelease : ask .dpRelease ({ s with returned := v }.setPhase .done) = some (endDraw { s with returned := v }) :=
    ask_of_opStep hv rfl rfl (.dpRelease rfl)
  refine ⟨v, ?_⟩
  rw [drawAndRelease, List.append_assoc, askAll_append, hdraw]
  exact askAll_cons_eq_some.mpr ⟨_, hdone, askAll_cons_eq_some.mpr ⟨_, hrelease, rfl⟩⟩

/-- A poll that finds a complete frame, a draw of in-range reads, its end and the release are all answered. -/
theorem askAll_dpPoll_drawAndRelease {frame : List Byte} {offs : List Nat} (h : HoldsFrame s frame)
    (hv : s.params.valid = true) (hphase : s.phase = .poll) (hlength : frame.length = s.capacity)
    (hoffs : ∀ off ∈ offs, off < s.capacity) :
    ∃ v, askAll (.dpPoll :: drawAndRelease (reads offs) []) s =
      some (endDraw { beginDraw s with returned := v }) := by
  have hready := h.ready_of_length_eq hlength
  have hreads : ∀ off ∈ offs, off < s.capacity ∧ ∃ v, byteAt s off = some v := fun off hoff =>
    have hlt := hoffs off hoff
    ⟨hlt, _, (h.stored off (hlength ▸ hlt)).trans (List.getElem?_eq_getElem (hlength ▸ hlt))⟩
  obtain ⟨v, hdraw⟩ := askAll_drawAndRelease (s := beginDraw s) hv rfl hready rfl hreads
  exact ⟨v, askAll_cons_eq_some.mpr ⟨_, ask_dpPoll_of_ready hv hphase hready, hdraw⟩⟩

/-- Settles O51: the stream by `run_feed`, which leaves the frame; from there the requests of the main loop. -/
theorem frameIsReceivedDrawnAndReleased : Obligations.FrameIsReceivedDrawnAndReleased := by
  intro s frame offs rest hv hready hlt hphase hlength hdata hoffs hq
  have hframe := holdsFrame_foldl_sentinel hv (bufferClosed_eq_false.mpr ⟨hready, hlt⟩) hlength.le hdata
  rw [List.append_assoc] at hq
  have hfeed := run_feed hv hq
  obtain ⟨m, c, r, hreceived⟩ := exists_foldl_receive_eq (s.params.sentinel :: frame) s
  rw [hreceived] at hframe hfeed
  obtain ⟨v, hasked⟩ := askAll_dpPoll_drawAndRelease hframe hv hphase hlength hoffs
  have hsteps : s.capacity + offs.length + 4 = (s.params.sentinel :: frame).length +
      (Request.dpPoll :: drawAndRelease (reads offs) []).length := by
    simp [drawAndRelease, reads, hlength]
    omega
  have hstored : ∀ k, k < s.capacity → Memory.read m k = frame[k]? := fun k hk => hframe.stored k (hlength ▸ hk)
  have hrun := run_of_askAll rest hasked
  rw [← run_append hfeed, ← hsteps] at hrun
  exact ⟨_, m, hrun, rfl, rfl, rfl, rfl, rfl, fun k hk => ⟨hstored k hk, hstored k hk⟩, rfl, rfl, rfl⟩

end Sys2Proof.Machine
end

section
/-! Where the order of two operations matters (R133). -/

namespace Sys2Proof.Machine

/-- While the transfer is outstanding the completion interrupt is not pending, so its handler has no step (R126). -/
theorem execTgIrq_of_busActive {s : State} (h : s.busActive = true) :
    exec .tgIrq s = .refused .completionNotPending := by
  simp [exec, execTgIrq, completionPending, h]

/-- Settles O57: each pair in both orders, the second operation from the outcome of the first. -/
theorem orderMattersWhereListed : Obligations.OrderMattersWhereListed := by
  refine ⟨fun s b hdone hready hpos hdata => ⟨?_, ?_⟩, fun s b hpoll hready hlast hdata => ⟨?_, ?_⟩,
    fun s hbusy harmed hidle => ⟨?_, ?_⟩, fun s harmed hactive => ⟨execTgIrq_of_busActive hactive, ?_⟩⟩
  · exact ⟨s, _, OpStep.exec_eq (.rxDrop (.inl hready)), OpStep.exec_eq (.dpRelease hdone), rfl, fun _ => rfl⟩
  · exact ⟨_, _, OpStep.exec_eq (.dpRelease hdone), OpStep.exec_eq (.rxData rfl hpos hdata), rfl,
      Memory.read_write_same _ _ _⟩
  · exact ⟨_, _, OpStep.exec_eq (.rxData hready (by omega) hdata),
      OpStep.exec_eq (.dpPollStartsDraw hpoll (decide_eq_true hlast)), rfl⟩
  · have hlt : s.cursor < s.capacity := by omega
    exact ⟨_, _, OpStep.exec_eq (.dpPollFindsNone hpoll hready), OpStep.exec_eq (.rxData hready hlt hdata), rfl,
      decide_eq_true hlast⟩
  · exact ⟨_, _, OpStep.exec_eq .tgQuery, OpStep.exec_eq (.tgIrq rfl hidle), by simp [hbusy],
      by simp [gateState, hidle]⟩
  · exact ⟨_, _, OpStep.exec_eq (.tgIrq harmed hidle), OpStep.exec_eq .tgQuery, rfl, by simp [gateState, hidle]⟩
  · exact ⟨_, _, OpStep.exec_eq (.busComplete hactive), OpStep.exec_eq (.tgIrq harmed rfl)⟩

end Sys2Proof.Machine
end

section
/-! A draw reads one frame (R102): who owns the buffer keeps it, whole, until the release. -/

namespace Sys2Proof.Machine

variable {s t : State} {i : Instr} {r : Request} {rest : List Request}

/-- A step on the next request that answers a state ran the operation the request decodes to, noted. -/
theorem opStep_of_step (hq : s.inbox = r :: rest) (h : step s = .next t) :
    ∃ i, decode s.params (selection s) r = .ok i ∧ OpStep (noteDraw i (s.setInbox rest)) i t := by
  obtain ⟨-, ⟨hnil, -⟩ | ⟨i, r', rest', hcons, hdecode, -, hexec⟩⟩ := step_next h
  · cases hq.symm.trans hnil
  · cases hq.symm.trans hcons
    exact ⟨i, hdecode, .of_exec hexec⟩

/-- An owned buffer stays owned, and keeps every byte, until the release or power-up: `ready` falls by no other
operation (R17), and the storage is written only with `ready` cleared (R41). -/
theorem OpStep.keeps_owned_frame (h : OpStep s i t) (hready : s.ready = true) (hrelease : i ≠ .dpRelease)
    (hreset : i ≠ .reset) : t.ready = true ∧ t.storage = s.storage := by
  constructor
  · by_contra hfell
    obtain rfl | rfl := h.ready_falls hready (Bool.eq_false_iff.mpr hfell)
    · exact hrelease rfl
    · exact hreset rfl
  · by_contra hchanged
    obtain ⟨hlow, -, -⟩ := h.storage_written hchanged hreset
    exact Bool.noConfusion (hready.symm.trans hlow)

/-- A step on any request but the release and power-up keeps an owned frame. -/
theorem step_keeps_owned_frame (hready : s.ready = true) (hq : s.inbox = r :: rest) (hrelease : r ≠ .dpRelease)
    (hreset : r ≠ .powerUp) (h : step s = .next t) : t.ready = true ∧ t.storage = s.storage := by
  obtain ⟨i, hdecode, hop⟩ := opStep_of_step hq h
  obtain ⟨rfl, -, -⟩ := encodeOfDecode _ _ _ _ hdecode
  exact hop.keeps_owned_frame hready (by rintro rfl; exact hrelease rfl) (by rintro rfl; exact hreset rfl)

/-- A run of such requests, of any length, keeps the owned frame it began with. -/
theorem run_keeps_owned_frame {n : Nat} (hready : s.ready = true)
    (hasked : ∀ r ∈ s.inbox.take n, r ≠ .dpRelease ∧ r ≠ .powerUp) (h : run n s = .next t) :
    t.ready = true ∧ t.storage = s.storage := by
  refine run_keeps_while (P := fun u => u.ready = true ∧ u.storage = s.storage) (fun _ hu _ => hu) ?_
    n s t ⟨hready, rfl⟩ hasked h
  rintro u v r rest ⟨hu, hstorage⟩ hq ⟨hrelease, hreset⟩ hstep
  obtain ⟨hv, hkept⟩ := step_keeps_owned_frame hu hq hrelease hreset hstep
  exact ⟨hv, hkept.trans hstorage⟩

/-- A read that is answered was answered with the byte the storage holds (R97). -/
theorem OpStep.fbRead_returned {off : Nat} (h : OpStep s (.fbRead off) t) :
    s.ready = true ∧ ∃ v, t.returned = some (.byte v) ∧ byteAt s off = some v := by
  cases h with
  | @fbRead _ v _ hready _ hv => exact ⟨hready, v, rfl, hv⟩

/-- Settles O50: the reads and the writes by their laws, and a run of other requests keeps the frame they leave. -/
theorem noTearingUntilRelease : Obligations.NoTearingUntilRelease := by
  refine ⟨fun s t off h => ?_, fun s t i h hchanged hreset => ?_, fun n s t hready hasked hrun => ?_⟩
  · obtain ⟨hready, -⟩ := (OpStep.of_exec h).fbRead_returned
    exact hready
  · obtain ⟨hlow, -, -⟩ := (OpStep.of_exec h).storage_written hchanged hreset
    exact hlow
  · obtain ⟨ht, hstorage⟩ := run_keeps_owned_frame hready hasked hrun
    refine ⟨ht, hstorage, fun off u hread => ?_⟩
    obtain ⟨-, v, hreturned, hv⟩ := (OpStep.of_exec hread).fbRead_returned
    have hsame : byteAt t off = byteAt s off := congrArg (Memory.read · off) hstorage
    exact ⟨v, hreturned, hsame ▸ hv⟩

end Sys2Proof.Machine
end

section
/-! The pump's loop, and the operations that move it (R93 to R99), each from its outcomes in `OpStep` and its guard on
the phase. -/

namespace Sys2Proof.Machine

variable {s t : State} {i : Instr} {r : Request} {rest : List Request} {off : Nat}

/-- An operation that has an outcome either moves the pump as R93's table gives, or is one that the table does not
list from this phase and that asks for none: it leaves the phase (log 9). -/
theorem OpStep.pump_moves (h : OpStep s i t) :
    pumpTable s.ready i s.phase = some t.phase ∨
      (pumpTable s.ready i s.phase = none ∧ i.asksPhase = false ∧ t.phase = s.phase) := by
  cases h with
  | dpPollStartsDraw hphase hready | dpPollFindsNone hphase hready =>
    exact .inl (by simp [pumpTable, hphase, hready])
  | fbRead hphase | drawDone hphase | dpRelease hphase => exact .inl (by simp [pumpTable, hphase])
  | reset => exact .inl rfl
  | tgSubmitAccepted | tgSubmitBlocked | tgQuery =>
    by_cases hphase : s.phase = .draw
    · exact .inl (by simp [pumpTable, hphase])
    · exact .inr ⟨by simp [pumpTable, hphase], rfl, rfl⟩
  | rxData | rxSentinel | rxDrop | rxNone | busComplete | tgIrq => exact .inr ⟨rfl, rfl, rfl⟩

/-- Settles O39: each clause keeps one side of `OpStep.pump_moves`. -/
theorem pumpFollowsItsTable : Obligations.PumpFollowsItsTable := by
  intro s i
  refine ⟨fun ph hrow t h => ?_, fun hnone => ⟨fun hasks => ?_, fun _ t h => ?_⟩⟩
  · obtain hmove | ⟨hnone, -, -⟩ := (OpStep.of_exec h).pump_moves
    · exact Option.some.inj (hmove.symm.trans hrow)
    · cases hnone.symm.trans hrow
  · refine exec_refused_of_no_opStep fun t h => ?_
    obtain hmove | ⟨-, hfree, -⟩ := h.pump_moves
    · cases hmove.symm.trans hnone
    · exact Bool.noConfusion (hasks.symm.trans hfree)
  · obtain hmove | ⟨-, -, hphase⟩ := (OpStep.of_exec h).pump_moves
    · cases hmove.symm.trans hnone
    · exact hphase

/-- An operation whose guard fails is refused, by the guard's name. -/
theorem enabledWhen_of_not {c : Prop} [Decidable c] (refusal : Refusal) (op : State → Result) (h : ¬ c) :
    enabledWhen (decide c) refusal op s = .refused refusal := by
  rw [decide_eq_false h, enabledWhen_false]

/-- Settles O9: the two outcomes of DP_POLL, and its guard. -/
theorem dpPollReturnsReadiness : Obligations.DpPollReturnsReadiness := fun _ =>
  ⟨fun hphase hready => (OpStep.dpPollFindsNone hphase hready).exec_eq,
    fun hphase hready => (OpStep.dpPollStartsDraw hphase hready).exec_eq, enabledWhen_of_not _ _⟩

/-- Settles O13: the outcome of DP_RELEASE, and its guard. -/
theorem dpReleaseReturnsBuffer : Obligations.DpReleaseReturnsBuffer := fun _ =>
  ⟨fun hphase => (OpStep.dpRelease hphase).exec_eq, enabledWhen_of_not _ _⟩

/-- Settles O10: FB_READ has an outcome exactly with its four conditions, and is refused without one. -/
theorem fbReadReturnsStoredByte : Obligations.FbReadReturnsStoredByte := by
  refine fun s off => ⟨fun v hphase hready hlt hv => (OpStep.fbRead hphase hready hlt hv).exec_eq, fun hfails => ?_⟩
  refine exec_refused_of_no_opStep fun t h => ?_
  cases h with
  | fbRead hphase hready hlt hv =>
    obtain hother | hlow | hle | hnone := hfails
    · exact hother hphase
    · exact Bool.noConfusion (hready.symm.trans hlow)
    · exact Nat.not_lt.mpr hle hlt
    · cases hv.symm.trans hnone

/-- In a draw the whole frame stands in the storage, each byte of it data (INV3 and INV4 of R21). -/
theorem Inv.holdsData_of_draw (h : Inv s) (hphase : s.phase = .draw) (hlt : off < s.capacity) :
    s.ready = true ∧ HoldsData s off := by
  have hready : s.ready = true := h.drawOwned (by simp [hphase])
  have hfull : s.cursor = s.capacity := h.readyCursor hready
  exact ⟨hready, h.frameData off (hfull ▸ hlt)⟩

/-- Settles O11: in a draw the buffer is owned and the frame whole, so every in-range read has its outcome. -/
theorem fbReadCompletesDuringDraw : Obligations.FbReadCompletesDuringDraw := by
  intro s off hs hphase hlt
  obtain ⟨hready, v, hv, hdata⟩ := hs.holdsData_of_draw hphase hlt
  exact ⟨v, hdata, hv, (OpStep.fbRead hphase hready hlt hv).exec_eq⟩

/-- A request that does not decode is refused, by the name of what is wrong with it. -/
theorem step_of_decode_error {e : DecodeError} (hv : s.params.valid = true) (hq : s.inbox = r :: rest)
    (hd : decode s.params (selection s) r = .error e) : step s = .refused (decodeRefusal e) := by
  simp only [step, fetch, if_pos hv, hq, hd]

/-- Display's return is turned away exactly while a submission of its draw is noted (log 8). -/
theorem decode_drawDone (s : State) :
    decode s.params (selection s) .drawDone = if s.drawHeld = [] then .ok .drawDone else .error .displayStalled := by
  cases hheld : s.drawHeld <;> simp [decode, selection, displayStalled, hheld]

/-- Settles O12: the outcome of DRAW_DONE, its guard, and what Display's return decodes to. -/
theorem drawDoneEndsDraw : Obligations.DrawDoneEndsDraw := by
  refine fun s => ⟨fun hphase => (OpStep.drawDone hphase).exec_eq, enabledWhen_of_not _ _, fun rest hv hq => ?_⟩
  have hd := decode_drawDone s
  split
  · next hnone => exact step_of_decode hv hq (hd.trans (if_pos hnone)) rfl
  · next hstalled => exact step_of_decode_error hv hq (hd.trans (if_neg hstalled))

end Sys2Proof.Machine
end

section
/-! Display's note of its draw, request by request (R99, R101, log 22). -/

namespace Sys2Proof.Machine

variable {s t : State} {i : Instr} {r : Request} {rest : List Request}

/-- Once an operation has been noted and run, the note is its record; power-up leaves none. -/
theorem OpStep.drawHeld_eq_record (h : OpStep (noteDraw i (s.setInbox rest)) i t) :
    t.drawHeld = if i = .reset then [] else drawRecord s i :=
  exec_drawHeld h.exec_eq

/-- What a submission leaves noted: its acceptance takes the payload out (R107), its stall adds it in phase DRAW and
nothing elsewhere (R108, R99). -/
theorem step_tgSubmit_drawHeld {x : Payload} (hq : s.inbox = .tgSubmit x :: rest) (h : step s = .next t) :
    (s.busy = false ∧ t.drawHeld = handOver x s.drawHeld) ∨
      (s.busy = true ∧ t.drawHeld = if s.phase = .draw then keepPayload x s.drawHeld else s.drawHeld) := by
  obtain ⟨i, hdecode, hop⟩ := opStep_of_step hq h
  obtain ⟨hbusy, rfl⟩ | ⟨hbusy, rfl⟩ := decode_tgSubmit_eq_ok hdecode
  · exact .inl ⟨hbusy, hop.drawHeld_eq_record⟩
  · exact .inr ⟨hbusy, hop.drawHeld_eq_record⟩

/-- A poll begins a draw exactly where it finds `ready` set (R94). -/
theorem OpStep.dpPoll_phase (h : OpStep s .dpPoll t) : t.phase = .draw ↔ s.ready = true := by
  cases h with
  | dpPollStartsDraw _ hready => exact ⟨fun _ => hready, fun _ => rfl⟩
  | dpPollFindsNone hphase hready => simp [hphase, hready]

/-- A poll that begins a draw empties the note; one that does not leaves it. -/
theorem step_dpPoll_drawHeld (hq : s.inbox = .dpPoll :: rest) (h : step s = .next t) :
    t.drawHeld = if t.phase = .draw then [] else s.drawHeld := by
  obtain ⟨i, hdecode, hop⟩ := opStep_of_step hq h
  cases hdecode
  have hbegins : t.phase = .draw ↔ s.ready = true := hop.dpPoll_phase
  have hnote : t.drawHeld = if s.ready = true then [] else s.drawHeld := hop.drawHeld_eq_record
  simp only [hnote, hbegins]

/-- Power-up leaves nothing noted (R146). -/
theorem step_powerUp_drawHeld (hq : s.inbox = .powerUp :: rest) (h : step s = .next t) : t.drawHeld = [] := by
  obtain ⟨i, hdecode, hop⟩ := opStep_of_step hq h
  cases hdecode
  exact hop.drawHeld_eq_record

/-- Only a submission, a poll or power-up is an operation that touches the note. -/
theorem drawHeld_eq_of_encode_ne (hop : OpStep (noteDraw i (s.setInbox rest)) i t)
    (hsubmit : ∀ x, encode i ≠ .tgSubmit x) (hpoll : encode i ≠ .dpPoll) (hreset : encode i ≠ .powerUp) :
    t.drawHeld = s.drawHeld := by
  have hnote := hop.drawHeld_eq_record
  cases i with
  | tgSubmitAccepted x | tgSubmitBlocked x => exact absurd rfl (hsubmit x)
  | dpPoll => exact absurd rfl hpoll
  | reset => exact absurd rfl hreset
  | _ => exact hnote

/-- Every other request leaves the note. -/
theorem step_other_drawHeld (hq : s.inbox = r :: rest) (hsubmit : ∀ x, r ≠ .tgSubmit x) (hpoll : r ≠ .dpPoll)
    (hreset : r ≠ .powerUp) (h : step s = .next t) : t.drawHeld = s.drawHeld := by
  obtain ⟨i, hdecode, hop⟩ := opStep_of_step hq h
  obtain ⟨rfl, -, -⟩ := encodeOfDecode _ _ _ _ hdecode
  exact drawHeld_eq_of_encode_ne hop hsubmit hpoll hreset

/-- Settles O60: each clause by its request, and the last by whether the request is a poll. -/
theorem drawSubmissionsAreNoted : Obligations.DrawSubmissionsAreNoted := by
  intro s t r rest hnodup hq h
  refine ⟨?_, ?_, fun hr => step_powerUp_drawHeld (hr ▸ hq) h, fun hsubmit hbegins hreset => ?_⟩
  · rintro x rfl
    obtain ⟨hbusy, hnote⟩ | ⟨hbusy, hnote⟩ := step_tgSubmit_drawHeld hq h
    · simp [hbusy, hnote, mem_handOver hnodup]
    · simp +contextual [hbusy, hnote]
  · rintro rfl hphase
    rw [step_dpPoll_drawHeld hq h, if_pos hphase]
  · by_cases hpoll : r = .dpPoll
    · subst hpoll
      rw [step_dpPoll_drawHeld hq h, if_neg fun hphase => hbegins ⟨rfl, hphase⟩]
    · exact step_other_drawHeld hq hsubmit hpoll hreset h

end Sys2Proof.Machine
end

section
/-! The gate's operations (R107 to R111), each from its outcome in `OpStep` and its guard, and what is done twice
(R44). -/

namespace Sys2Proof.Machine

/-- Settles O14: the outcome of an accepted submission. -/
theorem tgSubmitAcceptedStartsTransfer : Obligations.TgSubmitAcceptedStartsTransfer :=
  fun _ _ hbusy => ⟨_, (OpStep.tgSubmitAccepted hbusy).exec_eq⟩

/-- Settles O15: the outcome of a blocked submission. -/
theorem tgSubmitBlockedArmsAndStalls : Obligations.TgSubmitBlockedArmsAndStalls :=
  fun _ _ hbusy => ⟨_, (OpStep.tgSubmitBlocked hbusy).exec_eq⟩

/-- Settles O16: the outcome of a query, which asks nothing of the state. -/
theorem tgQueryReturnsAndArms : Obligations.TgQueryReturnsAndArms := fun _ => OpStep.tgQuery.exec_eq

/-- With nothing outstanding DisplayBus has nothing to complete (R110). -/
theorem execBusComplete_of_idle {s : State} (h : s.busActive = false) :
    exec .busComplete s = .refused .noTransferOutstanding := by
  simp [exec, execBusComplete, h]

/-- Settles O17: the outcome of BUS_COMPLETE, and its guard. -/
theorem busCompleteLowersLevel : Obligations.BusCompleteLowersLevel :=
  fun _ => ⟨fun hactive => (OpStep.busComplete hactive).exec_eq, execBusComplete_of_idle⟩

/-- Disarmed, the completion interrupt is not pending, whatever the bus does (R126). -/
theorem execTgIrq_of_unarmed {s : State} (h : s.armed = false) :
    exec .tgIrq s = .refused .completionNotPending := by
  simp [exec, execTgIrq, completionPending, h]

/-- Settles O18: the outcome of TG_IRQ, and the two halves of its guard. -/
theorem tgIrqClearsBusyAndArmed : Obligations.TgIrqClearsBusyAndArmed :=
  fun _ => ⟨fun harmed hidle => (OpStep.tgIrq harmed hidle).exec_eq,
    fun hnot => hnot.elim execTgIrq_of_unarmed execTgIrq_of_busActive⟩

/-- A second query finds the arming and the flag as the first left them (R109 (c)). -/
theorem OpStep.tgQuery_twice {s t u : State} (h : OpStep s .tgQuery t) (hagain : OpStep t .tgQuery u) : u = t := by
  cases h
  cases hagain
  rfl

/-- A read writes nothing that a read looks at (R97). -/
theorem OpStep.fbRead_again {s t : State} {off : Nat} (h : OpStep s (.fbRead off) t) : OpStep t (.fbRead off) t := by
  cases h with
  | fbRead hphase hready hlt hv => exact .fbRead (s := s.setReturned _) hphase hready hlt hv

/-- Settles O19: a query and a read, each repeated, by their lemmas. -/
theorem queryAndReadAreIdempotent : Obligations.QueryAndReadAreIdempotent :=
  ⟨fun _ _ _ h hagain => (OpStep.of_exec h).tgQuery_twice (.of_exec hagain),
    fun _ _ _ h => (OpStep.of_exec h).fbRead_again.exec_eq⟩

end Sys2Proof.Machine
end

section
/-! The gate's table (R117), and its invariant (R113): at most one transfer is outstanding. -/

namespace Sys2Proof.Machine

variable {s t : State} {i : Instr} {x : Payload}

/-- The gate's invariant, read from the idle side: an idle gate has nothing outstanding. -/
theorem busActive_eq_false_of_idle (hgate : s.busActive = true → s.busy = true) (hidle : s.busy = false) :
    s.busActive = false :=
  Bool.eq_false_iff.mpr fun hactive => Bool.noConfusion (hidle.symm.trans (hgate hactive))

/-- Every operation that has an outcome moves the gate as R117's table gives. -/
theorem OpStep.gate_moves (h : OpStep s i t) (hgate : s.busActive = true → s.busy = true) :
    gateTable i (gateState s) = some (gateState t) := by
  cases h with
  | tgSubmitAccepted hidle => simp [gateTable, gateState, hidle, busActive_eq_false_of_idle hgate hidle]
  | tgSubmitBlocked hbusy => simp [gateTable, gateState, hbusy]
  | busComplete hactive => simp [gateTable, gateState, hactive, hgate hactive]
  | tgIrq harmed hactive => simp [gateTable, gateState, harmed, hactive]
  | _ => rfl

/-- A gate operation has an outcome wherever R117's table gives it a move. -/
theorem OpStep.of_gateTable {g : Bool × Bool × Bool} (hi : i.isGateOp = true)
    (hrow : gateTable i (gateState s) = some g) : ∃ t, OpStep s i t := by
  cases i with
  | tgSubmitAccepted x =>
    cases hbusy : s.busy with
    | false => exact ⟨_, .tgSubmitAccepted hbusy⟩
    | true => simp [gateTable, gateState, hbusy] at hrow
  | tgSubmitBlocked x =>
    cases hbusy : s.busy with
    | false => simp [gateTable, gateState, hbusy] at hrow
    | true => exact ⟨_, .tgSubmitBlocked hbusy⟩
  | tgQuery => exact ⟨_, .tgQuery⟩
  | busComplete =>
    cases hactive : s.busActive with
    | false => cases hbusy : s.busy <;> simp [gateTable, gateState, hbusy, hactive] at hrow
    | true => exact ⟨_, .busComplete hactive⟩
  | tgIrq =>
    cases harmed : s.armed with
    | false => simp [gateTable, gateState, harmed] at hrow
    | true =>
      cases hactive : s.busActive with
      | false => exact ⟨_, .tgIrq harmed hactive⟩
      | true => simp [gateTable, gateState, harmed, hactive] at hrow
  | _ => cases hi

/-- Settles O40: an outcome moves the gate by the table, and where the table gives a move there is an outcome. -/
theorem gateFollowsItsTable : Obligations.GateFollowsItsTable := by
  intro s i hgate
  refine ⟨fun t h => (OpStep.of_exec h).gate_moves hgate, fun hi g hrow => ?_⟩
  obtain ⟨t, h⟩ := OpStep.of_gateTable hi hrow
  exact ⟨t, h.exec_eq, Option.some.inj ((h.gate_moves hgate).symm.trans hrow)⟩

/-- An operation that puts out BUS_START is an accepted submission: it found the gate idle, and the bus's level is
1 after it (R107). -/
theorem OpStep.of_busStart (h : OpStep s i t) (hput : t.emitted = s.emitted ++ [.busStart x]) :
    s.busy = false ∧ t.busActive = true := by
  cases h with
  | tgSubmitAccepted hidle => exact ⟨hidle, rfl⟩
  | dpPollStartsDraw => simp [drawStart] at hput
  | _ => simp at hput

/-- Settles O43: an idle step starts no transfer, and any other is the outcome of one operation. -/
theorem gateInvariantAndOneTransfer : Obligations.GateInvariantAndOneTransfer := by
  intro s hgate
  refine ⟨fun t h => ?_, fun hactive => ⟨_, (OpStep.busComplete hactive).exec_eq, hgate hactive, rfl⟩⟩
  obtain ⟨-, ⟨-, rfl⟩ | ⟨i, r, rest, -, -, -, hexec⟩⟩ := step_next h
  · exact ⟨hgate, fun x hput => by simp at hput⟩
  · have hop : OpStep (noteDraw i (s.setInbox rest)) i t := .of_exec hexec
    refine ⟨hop.busBusy hgate, fun x hput => ?_⟩
    obtain ⟨hidle, hstarted⟩ := hop.of_busStart hput
    exact ⟨busActive_eq_false_of_idle hgate hidle, hstarted⟩

end Sys2Proof.Machine
end

section
/-! What Display keeps of the payloads that stall (R108, log 20). -/

namespace Sys2Proof.Machine

variable {s t : State} {i : Instr}

/-- Only a submission or power-up touches what Display keeps. -/
theorem OpStep.held_eq (h : OpStep s i t) (hblocked : ∀ x, i ≠ .tgSubmitBlocked x)
    (haccepted : ∀ x, i ≠ .tgSubmitAccepted x) (hreset : i ≠ .reset) : t.held = s.held := by
  cases h with
  | tgSubmitBlocked => exact absurd rfl (hblocked _)
  | tgSubmitAccepted => exact absurd rfl (haccepted _)
  | reset => exact absurd rfl hreset
  | _ => rfl

/-- Settles O58: a stall adds its payload, an acceptance takes it out, power-up forgets all, nothing else writes. -/
theorem stalledPayloadsAreKept : Obligations.StalledPayloadsAreKept := by
  intro s t i hnodup h
  have hop : OpStep s i t := .of_exec h
  refine ⟨?_, ?_, ?_, hop.held_eq⟩
  · rintro x rfl y
    cases hop
    exact mem_keepPayload
  · rintro x rfl y
    cases hop
    exact mem_handOver hnodup
  · rintro rfl
    cases hop
    rfl

end Sys2Proof.Machine
end

section
/-! One arming per transfer (R112): it is enough, and without it the gate stays busy (R156). -/

namespace Sys2Proof.Machine

variable {s t : State} {i : Instr}

/-- Settles O53: whichever of the query and the completion comes first, TG_IRQ finds both done. -/
theorem oneArmingPerTransferIsEnough : Obligations.OneArmingPerTransferIsEnough := by
  intro s t x h
  cases OpStep.of_exec h
  exact ⟨⟨_, _, _, OpStep.tgQuery.exec_eq, OpStep.exec_eq (.busComplete rfl), OpStep.exec_eq (.tgIrq rfl rfl), rfl⟩,
    ⟨_, _, _, OpStep.exec_eq (.busComplete rfl), OpStep.tgQuery.exec_eq, OpStep.exec_eq (.tgIrq rfl rfl), rfl⟩⟩

/-- Power-up, a query and a stalled submission aside, every operation leaves a busy gate that is not armed as it is:
the completion interrupt is not pending. -/
theorem OpStep.keeps_unarmed (h : OpStep s i t) (hbusy : s.busy = true) (hunarmed : s.armed = false)
    (hquery : i ≠ .tgQuery) (hblocked : ∀ x, i ≠ .tgSubmitBlocked x) (hreset : i ≠ .reset) :
    t.busy = true ∧ t.armed = false := by
  cases h with
  | tgSubmitAccepted => exact ⟨rfl, hunarmed⟩
  | tgSubmitBlocked => exact absurd rfl (hblocked _)
  | tgQuery => exact absurd rfl hquery
  | tgIrq harmed => exact Bool.noConfusion (hunarmed.symm.trans harmed)
  | reset => exact absurd rfl hreset
  | _ => exact ⟨hbusy, hunarmed⟩

/-- Settles O54: a step on any other request keeps the gate busy and unarmed, and so does a run of them. -/
theorem unarmedGateStaysBusy : Obligations.UnarmedGateStaysBusy := by
  intro n s t hbusy hunarmed hasked h
  refine run_keeps_while (P := fun u => u.busy = true ∧ u.armed = false) (fun _ hu _ => hu) ?_
    n s t ⟨hbusy, hunarmed⟩ hasked h
  rintro u v r rest ⟨hu, hunarmed⟩ hq ⟨hquery, hreset, hsubmit⟩ hstep
  obtain ⟨i, hdecode, hop⟩ := opStep_of_step hq hstep
  obtain ⟨rfl, -, -⟩ := encodeOfDecode _ _ _ _ hdecode
  exact hop.keeps_unarmed hu hunarmed (by rintro rfl; exact hquery rfl)
    (by rintro x rfl; exact hsubmit x rfl) (by rintro rfl; exact hreset rfl)

end Sys2Proof.Machine
end

section
/-! A bus that never completes (R115, R121): the gate stays busy, every submission stalls, and a draw with one of its
own stalled never ends. -/

namespace Sys2Proof.Machine

variable {s t u : State} {i : Instr} {r : Request} {rest : List Request} {x : Payload}

/-- The transfer outstanding at `s` is outstanding at `t`, and Display still keeps there what it kept. -/
structure HoldsTransfer (s t : State) : Prop where
  busy : t.busy = true
  busActive : t.busActive = true
  held : ∀ x ∈ s.held, x ∈ t.held

theorem HoldsTransfer.trans (h : HoldsTransfer s t) (h' : HoldsTransfer t u) : HoldsTransfer s u :=
  ⟨h'.busy, h'.busActive, fun x hx => h'.held x (h.held x hx)⟩

/-- While a transfer is outstanding, only its completion or power-up ends it: TG_IRQ is not pending, and no
submission is accepted. -/
theorem OpStep.holdsTransfer (h : OpStep s i t) (hbusy : s.busy = true) (hactive : s.busActive = true)
    (hcomplete : i ≠ .busComplete) (hreset : i ≠ .reset) : HoldsTransfer s t := by
  cases h with
  | tgSubmitAccepted hidle => exact Bool.noConfusion (hidle.symm.trans hbusy)
  | tgSubmitBlocked => exact ⟨hbusy, hactive, fun x hx => mem_keepPayload.mpr (.inr hx)⟩
  | busComplete => exact absurd rfl hcomplete
  | tgIrq _ hidle => exact Bool.noConfusion (hidle.symm.trans hactive)
  | reset => exact absurd rfl hreset
  | _ => exact ⟨hbusy, hactive, fun _ hx => hx⟩

/-- So does a step on any request but the completion and power-up. -/
theorem step_holdsTransfer (hbusy : s.busy = true) (hactive : s.busActive = true) (hq : s.inbox = r :: rest)
    (hcomplete : r ≠ .busComplete) (hreset : r ≠ .powerUp) (h : step s = .next t) : HoldsTransfer s t := by
  obtain ⟨i, hdecode, hop⟩ := opStep_of_step hq h
  obtain ⟨rfl, -, -⟩ := encodeOfDecode _ _ _ _ hdecode
  obtain ⟨hbusy', hactive', hheld⟩ := hop.holdsTransfer hbusy hactive (by rintro rfl; exact hcomplete rfl)
    (by rintro rfl; exact hreset rfl)
  exact ⟨hbusy', hactive', hheld⟩

/-- And a run of them. -/
theorem run_holdsTransfer {n : Nat} (hbusy : s.busy = true) (hactive : s.busActive = true)
    (hasked : ∀ r ∈ s.inbox.take n, r ≠ .busComplete ∧ r ≠ .powerUp) (h : run n s = .next t) :
    HoldsTransfer s t := by
  refine run_keeps_while (P := HoldsTransfer s) (fun _ hu _ => hu) ?_ n s t ⟨hbusy, hactive, fun _ hx => hx⟩ hasked h
  rintro u v r rest hu hq ⟨hcomplete, hreset⟩ hstep
  exact hu.trans (step_holdsTransfer hu.busy hu.busActive hq hcomplete hreset hstep)

/-- The draw that `s` is in is still going on at `t`, of the frame as it was, with every submission that was stalled
in it still noted. -/
structure HoldsDraw (s t : State) : Prop where
  phase : t.phase = .draw
  ready : t.ready = true
  cursor : t.cursor = s.cursor
  storage : t.storage = s.storage
  drawHeld : ∀ x ∈ s.drawHeld, x ∈ t.drawHeld

theorem HoldsDraw.trans (h : HoldsDraw s t) (h' : HoldsDraw t u) : HoldsDraw s u :=
  ⟨h'.phase, h'.ready, h'.cursor.trans h.cursor, h'.storage.trans h.storage,
    fun x hx => h'.drawHeld x (h.drawHeld x hx)⟩

/-- A submission that stalls takes nothing out of Display's note. -/
theorem mem_drawRecord_tgSubmitBlocked_of_mem {y : Payload} (h : y ∈ s.drawHeld) :
    y ∈ drawRecord s (.tgSubmitBlocked x) := by
  show y ∈ if s.phase = .draw then keepPayload x s.drawHeld else s.drawHeld
  split
  · exact mem_keepPayload.mpr (.inr h)
  · exact h

/-- In a draw of an owned buffer, with the gate busy, only Display's return or power-up ends the draw, writes the
frame or takes a payload out of the note. -/
theorem OpStep.holdsDraw (h : OpStep (noteDraw i s) i t) (hbusy : s.busy = true) (hphase : s.phase = .draw)
    (hready : s.ready = true) (hreturn : i ≠ .drawDone) (hreset : i ≠ .reset) : HoldsDraw s t := by
  cases h with
  | rxData hopen | rxSentinel hopen => exact Bool.noConfusion (hopen.symm.trans hready)
  | dpPollStartsDraw hother | dpPollFindsNone hother | dpRelease hother =>
    exact Phase.noConfusion (hother.symm.trans hphase)
  | drawDone => exact absurd rfl hreturn
  | tgSubmitAccepted hidle => exact Bool.noConfusion (hidle.symm.trans hbusy)
  | tgSubmitBlocked => exact ⟨hphase, hready, rfl, rfl, fun _ => mem_drawRecord_tgSubmitBlocked_of_mem⟩
  | reset => exact absurd rfl hreset
  | _ => exact ⟨hphase, hready, rfl, rfl, fun _ hx => hx⟩

/-- With a submission of the draw stalled, Display's return is not asked for, so a step on any request but power-up
holds the draw (R99, log 8). -/
theorem step_holdsDraw (hbusy : s.busy = true) (hphase : s.phase = .draw) (hready : s.ready = true)
    (hstalled : s.drawHeld ≠ []) (hq : s.inbox = r :: rest) (hreset : r ≠ .powerUp) (h : step s = .next t) :
    HoldsDraw s t := by
  obtain ⟨i, hdecode, hop⟩ := opStep_of_step hq h
  have hreturn : i ≠ .drawDone := by
    rintro rfl
    exact hstalled (drawHeld_eq_nil_of_decode_drawDone hdecode)
  obtain ⟨rfl, -, -⟩ := encodeOfDecode _ _ _ _ hdecode
  obtain ⟨hphase', hready', hcursor, hstorage, hnoted⟩ :=
    hop.holdsDraw hbusy hphase hready hreturn (by rintro rfl; exact hreset rfl)
  exact ⟨hphase', hready', hcursor, hstorage, hnoted⟩

/-- While the bus does not complete, a run holds the draw: the gate stays busy, and what is stalled stays noted. -/
theorem run_holdsDraw {n : Nat} (hbusy : s.busy = true) (hactive : s.busActive = true)
    (hasked : ∀ r ∈ s.inbox.take n, r ≠ .busComplete ∧ r ≠ .powerUp) (hstalled : s.drawHeld ≠ [])
    (hphase : s.phase = .draw) (hready : s.ready = true) (h : run n s = .next t) : HoldsDraw s t := by
  obtain ⟨y, hy⟩ := List.exists_mem_of_ne_nil _ hstalled
  suffices hboth : HoldsTransfer s t ∧ HoldsDraw s t from hboth.2
  refine run_keeps_while (P := fun u => HoldsTransfer s u ∧ HoldsDraw s u) (fun _ hu _ => hu) ?_ n s t
    ⟨⟨hbusy, hactive, fun _ hx => hx⟩, hphase, hready, rfl, rfl, fun _ hx => hx⟩ hasked h
  rintro u v r rest ⟨hgate, hdraw⟩ hq ⟨hcomplete, hreset⟩ hstep
  have hstill : u.drawHeld ≠ [] := List.ne_nil_of_mem (hdraw.drawHeld y hy)
  exact ⟨hgate.trans (step_holdsTransfer hgate.busy hgate.busActive hq hcomplete hreset hstep),
    hdraw.trans (step_holdsDraw hgate.busy hdraw.phase hdraw.ready hstill hq hreset hstep)⟩

/-- The state in which a submission has stalled: the gate armed, the payload kept, and noted of its draw (R108,
log 22). -/
def stallSubmission (x : Payload) (s : State) : State :=
  (((noteDraw (.tgSubmitBlocked x) s).setArmed true).setHeld (keepPayload x s.held)).setReturned .stalled

@[simp] theorem stallSubmission_params : (stallSubmission x s).params = s.params := rfl
@[simp] theorem stallSubmission_busActive : (stallSubmission x s).busActive = s.busActive := rfl
@[simp] theorem stallSubmission_armed : (stallSubmission x s).armed = true := rfl
@[simp] theorem stallSubmission_returned : (stallSubmission x s).returned = some .stalled := rfl

/-- It is the outcome of the operation that a busy gate makes of the submission, once noted. -/
theorem opStep_stallSubmission (hbusy : s.busy = true) :
    OpStep (noteDraw (.tgSubmitBlocked x) s) (.tgSubmitBlocked x) (stallSubmission x s) := .tgSubmitBlocked hbusy

/-- A submission that meets a busy gate decodes to the blocked one. -/
theorem decode_tgSubmit_of_busy (hbusy : s.busy = true) (hfits : s.params.fitsWord x = true) :
    decode s.params (selection s) (.tgSubmit x) = .ok (.tgSubmitBlocked x) :=
  decode_encode (i := .tgSubmitBlocked x) hfits hbusy

/-- In phase DRAW a submission that stalls is noted. -/
theorem mem_drawHeld_stallSubmission (hphase : s.phase = .draw) : x ∈ (stallSubmission x s).drawHeld := by
  have hnote : (stallSubmission x s).drawHeld = keepPayload x s.drawHeld := if_pos hphase
  exact hnote ▸ mem_keepPayload.mpr (.inl rfl)

/-- A step on a submission that meets a busy gate stalls it. -/
theorem step_tgSubmit_of_busy (hbusy : s.busy = true) (hv : s.params.valid = true)
    (hfits : s.params.fitsWord x = true) (hq : s.inbox = .tgSubmit x :: rest) :
    step s = .next (stallSubmission x (s.setInbox rest)) :=
  (step_of_decode hv hq (decode_tgSubmit_of_busy hbusy hfits) hfits).trans 
    (opStep_stallSubmission (s := s.setInbox rest) hbusy).exec_eq

/-- An attempt that meets a busy gate is told that it stalls. -/
theorem ask_tgSubmit_returned_of_busy (hbusy : s.busy = true) (h : ask (.tgSubmit x) s = some t) :
    t.returned = some .stalled := by
  obtain ⟨i, hdecode, hop⟩ := ask_next h
  obtain ⟨hidle, -⟩ | ⟨-, rfl⟩ := decode_tgSubmit_eq_ok hdecode
  · exact Bool.noConfusion (hidle.symm.trans hbusy)
  · cases hop
    rfl

/-- Every request of a repetition is an attempt, or one of the interruptions between its attempts. -/
theorem mem_asked_of_repeatUntil {met : Returned → Bool} {r : Request} {waits : List (List Interruption)}
    {k : Stretch} (h : repeatUntil met r waits s = some k) :
    ∀ r' ∈ k.asked, r' = r ∨ ∃ w ∈ waits, ∃ j ∈ w, r' = j.request := by
  induction waits generalizing s k with
  | nil =>
    obtain ⟨t, -, h⟩ := Option.bind_eq_some_iff.mp h
    split at h
    · cases h; simp
    · cases h
  | cons w waits ih =>
    obtain ⟨t, -, h⟩ := Option.bind_eq_some_iff.mp h
    split at h
    · cases h; simp
    · obtain ⟨u, -, h⟩ := Option.bind_eq_some_iff.mp h
      obtain ⟨k', hk', rfl⟩ := Option.map_eq_some_iff.mp h
      intro r' hr'
      obtain hhead | hrest := List.mem_append.mp hr'
      · obtain rfl | hwait := List.mem_cons.mp hhead
        · exact .inl rfl
        · obtain ⟨j, hj, rfl⟩ := List.mem_map.mp hwait
          exact .inr ⟨w, List.mem_cons_self, j, hj, rfl⟩
      · refine (ih hk' r' hrest).imp_right ?_
        rintro ⟨w', hw', hj⟩
        exact ⟨w', List.mem_cons_of_mem _ hw', hj⟩

/-- SUBMIT_BLOCKING has no end while the bus does not complete: its last attempt would meet a busy gate. -/
theorem submitBlocking_eq_none {waits : List (List Interruption)} (hbusy : s.busy = true)
    (hactive : s.busActive = true) (hwaits : ∀ w ∈ waits, .busComplete ∉ w) : submitBlocking x waits s = none := by
  refine Option.eq_none_iff_forall_ne_some.mpr fun k h => ?_
  have hother : ∀ r ∈ k.asked, r ≠ .busComplete ∧ r ≠ .powerUp := by
    intro r hr
    obtain rfl | ⟨w, hw, j, hj, rfl⟩ := mem_asked_of_repeatUntil h r hr
    · exact ⟨nofun, nofun⟩
    · cases j with
      | rx | tgIrq => exact ⟨nofun, nofun⟩
      | busComplete => exact absurd hj (hwaits w hw)
  obtain ⟨q, u, hasked, hq, hlast, hmet⟩ := repeatUntil_eq_some h
  have hheld : HoldsTransfer s u := by
    refine askAll_keeps (P := HoldsTransfer s) (fun r hr v w hv hask => ?_) ⟨hbusy, hactive, fun _ hx => hx⟩ hq
    obtain ⟨hcomplete, hreset⟩ := hother r (hasked ▸ List.mem_append_left _ hr)
    have hstep : HoldsTransfer (askFirst v r) w :=
      step_holdsTransfer hv.busy hv.busActive rfl hcomplete hreset (ask_eq_some.mp hask)
    exact hv.trans ⟨hstep.busy, hstep.busActive, hstep.held⟩
  simp [answered, ask_tgSubmit_returned_of_busy hheld.busy hlast] at hmet

/-- Settles O55: the gate, the draw and the next submission each by its lemma; SUBMIT_BLOCKING by the last. -/
theorem stalledBusHoldsGateBusy : Obligations.StalledBusHoldsGateBusy := by
  refine fun s hbusy hactive => ⟨fun n t hasked h => ?_, fun x waits => submitBlocking_eq_none hbusy hactive⟩
  obtain ⟨hbusy', hactive', hheld⟩ := run_holdsTransfer hbusy hactive hasked h
  refine ⟨hbusy', hactive', hheld, fun hstalled hphase hready => ?_,
    fun x rest hv hfits hq => ⟨_, step_tgSubmit_of_busy hbusy' hv hfits hq, rfl, rfl, hbusy',
      mem_keepPayload.mpr (.inl rfl), fun hphase => mem_drawHeld_stallSubmission (s := t.setInbox rest) hphase⟩⟩
  obtain ⟨hphase', hready', hcursor, hstorage, hnoted⟩ := run_holdsDraw hbusy hactive hasked hstalled hphase hready h
  exact ⟨hphase', hready', hcursor, hstorage, hnoted⟩

end Sys2Proof.Machine
end

section
/-! A blocked submission's way to the bus (R114): it stalls, the bus completes, the interrupt is taken, and the same
payload is accepted. -/

namespace Sys2Proof.Machine

variable {s t : State} {x : Payload}

/-- An attempt that meets an idle gate is accepted (R107). -/
theorem ask_tgSubmit_of_idle (hidle : s.busy = false) (hv : s.params.valid = true)
    (hfits : s.params.fitsWord x = true) :
    ∃ t, ask (.tgSubmit x) s = some t ∧ t.returned = some .accepted := by
  have hdecode : decode s.params (selection s) (.tgSubmit x) = .ok (.tgSubmitAccepted x) :=
    decode_encode (i := .tgSubmitAccepted x) hfits (by simp [Instr.selectedBy, selection, hidle])
  exact ⟨_, ask_of_opStep hv hdecode hfits (.tgSubmitAccepted hidle), rfl⟩

/-- Where the gate is armed, the completion and its interrupt are both answered, and leave it idle (R110, R111). -/
theorem askAll_completion (hv : s.params.valid = true) (hactive : s.busActive = true) (harmed : s.armed = true) :
    askAll [.busComplete, .tgIrq] s = some (((s.setBusActive false).setBusy false).setArmed false) := by
  have hcomplete : ask .busComplete s = some (s.setBusActive false) := ask_of_opStep hv rfl rfl (.busComplete hactive)
  have hirq : ask .tgIrq (s.setBusActive false) = some (((s.setBusActive false).setBusy false).setArmed false) :=
    ask_of_opStep hv rfl rfl (.tgIrq harmed rfl)
  exact askAll_cons_eq_some.mpr ⟨_, hcomplete, askAll_cons_eq_some.mpr ⟨_, hirq, rfl⟩⟩

/-- SUBMIT_BLOCKING, with the completion and its interrupt after its first attempt, ends at its second: the first
stalls, and so arms the gate for the interrupt. -/
theorem submitBlocking_through_completion (hbusy : s.busy = true) (hactive : s.busActive = true)
    (hv : s.params.valid = true) (hfits : s.params.fitsWord x = true) :
    ∃ k, submitBlocking x [[.busComplete, .tgIrq]] s = some k ∧
      k.asked = [.tgSubmit x, .busComplete, .tgIrq, .tgSubmit x] := by
  have hstalls : ask (.tgSubmit x) s = some (stallSubmission x s) :=
    ask_of_opStep hv (decode_tgSubmit_of_busy hbusy hfits) hfits (opStep_stallSubmission hbusy)
  have hwait : askAll [.busComplete, .tgIrq] (stallSubmission x s) = _ :=
    askAll_completion (by simpa using hv) (by simpa using hactive) stallSubmission_armed
  obtain ⟨t, haccepted, hreturned⟩ := ask_tgSubmit_of_idle (x := x)
    (s := (((stallSubmission x s).setBusActive false).setBusy false).setArmed false) rfl (by simpa using hv)
    (by simpa using hfits)
  refine ⟨⟨_, t⟩, ?_, rfl⟩
  simp [submitBlocking, repeatUntil, answered, Interruption.request, hstalls, hwait, haccepted, hreturned]

/-- Settles O52: each operation's outcome enables the next; SUBMIT_BLOCKING asks for the same four. -/
theorem blockedSubmitProceedsAfterCompletion : Obligations.BlockedSubmitProceedsAfterCompletion := by
  intro s x hbusy hactive
  refine ⟨_, _, _, _, OpStep.exec_eq (.tgSubmitBlocked hbusy), OpStep.exec_eq (.busComplete hactive),
    OpStep.exec_eq (.tgIrq rfl rfl), OpStep.exec_eq (.tgSubmitAccepted rfl), rfl, rfl, by simp, rfl, fun hv hfits => ?_⟩
  obtain ⟨k, hk, hasked⟩ := submitBlocking_through_completion hbusy hactive hv hfits
  obtain ⟨-, -, hemitted⟩ := submitBlocking_ends hk
  exact ⟨k, hk, hasked, hemitted⟩

end Sys2Proof.Machine
end

section
/-! Interrupts as the block's only exceptions (R118, R127), and what each context may write (R128, R135). -/

namespace Sys2Proof.Machine

variable {s t : State} {i : Instr}

/-- Settles O29: a step idles, is refused, or runs an operation, and no operation faults. -/
theorem noStepFaults : Obligations.NoStepFaults := by
  intro s f
  unfold step
  cases fetch s with
  | idle | stop => exact nofun
  | run i t => exact exec_ne_fault i t f

/-- The interrupt context leaves the phase, and every field that is not the block's own part (R128). -/
theorem OpStep.interrupt_leaves_agent (h : OpStep s i t) (hi : i.context = .interrupt) :
    t.phase = s.phase ∧ SameOwn s t := by
  cases h with
  | rxData | rxSentinel | rxDrop | rxNone | tgIrq => exact ⟨rfl, rfl, rfl, rfl, rfl, rfl, rfl⟩
  | _ => cases hi

/-- Settles O37: every outcome of the interrupt context writes the frame buffer or the gate's flags at most. -/
theorem activationLeavesInterruptedAgentAlone : Obligations.ActivationLeavesInterruptedAgentAlone :=
  fun _ _ _ hi h => (OpStep.of_exec h).interrupt_leaves_agent hi

/-- The interrupt context leaves a buffer that the consumer owns: the operations that store find `ready` cleared. -/
theorem OpStep.interrupt_leaves_owned_buffer (h : OpStep s i t) (hi : i.context = .interrupt)
    (hready : s.ready = true) : t.ready = true ∧ t.cursor = s.cursor ∧ t.storage = s.storage := by
  cases h with
  | rxData hlow | rxSentinel hlow => exact Bool.noConfusion (hlow.symm.trans hready)
  | rxDrop | rxNone | tgIrq => exact ⟨hready, rfl, rfl⟩
  | _ => cases hi

/-- The interrupt context raises no flag of the gate: what raises one is a submission or a query. -/
theorem OpStep.interrupt_raises_no_flag (h : OpStep s i t) (hi : i.context = .interrupt) :
    (t.busy = true → s.busy = true) ∧ (t.armed = true → s.armed = true) := by
  refine ⟨fun hhigh => ?_, fun hhigh => ?_⟩ <;> by_contra hlow
  · obtain ⟨x, rfl⟩ := h.busy_rises (Bool.eq_false_iff.mpr hlow) hhigh
    cases hi
  · obtain rfl | ⟨x, rfl⟩ := h.armed_rises (Bool.eq_false_iff.mpr hlow) hhigh <;> cases hi

/-- The main loop leaves the storage, and the cursor and `ready` too, but for the release, which clears both. -/
theorem OpStep.mainLoop_buffer (h : OpStep s i t) (hi : i.context = .mainLoop) :
    t.storage = s.storage ∧
      ((i = .dpRelease ∧ t.cursor = 0 ∧ t.ready = false) ∨ (t.cursor = s.cursor ∧ t.ready = s.ready)) := by
  cases h with
  | dpRelease => exact ⟨rfl, .inl ⟨rfl, rfl, rfl⟩⟩
  | rxData | rxSentinel | rxDrop | rxNone | busComplete | tgIrq | reset => cases hi
  | _ => exact ⟨rfl, .inr ⟨rfl, rfl⟩⟩

/-- The main loop lowers no flag of the gate: what lowers one is the completion handler or power-up. -/
theorem OpStep.mainLoop_lowers_no_flag (h : OpStep s i t) (hi : i.context = .mainLoop) :
    (s.busy = true → t.busy = true) ∧ (s.armed = true → t.armed = true) := by
  refine ⟨fun hhigh => ?_, fun hhigh => ?_⟩ <;> by_contra hlow
  · obtain rfl | rfl := h.busy_falls hhigh (Bool.eq_false_iff.mpr hlow) <;> cases hi
  · obtain rfl | rfl := h.armed_falls hhigh (Bool.eq_false_iff.mpr hlow) <;> cases hi

/-- Settles O36: what each context may do to the pump, the buffer and the gate, put together. -/
theorem contextsKeepToTheirFields : Obligations.ContextsKeepToTheirFields := by
  intro s t i h
  have hop : OpStep s i t := .of_exec h
  refine ⟨fun hi => ?_, fun hi => ?_⟩
  · obtain ⟨hphase, -⟩ := hop.interrupt_leaves_agent hi
    exact ⟨hphase, hop.interrupt_leaves_owned_buffer hi, hop.interrupt_raises_no_flag hi⟩
  · have hflags := hop.mainLoop_lowers_no_flag hi
    obtain ⟨hstorage, ⟨hrelease, hcursor, hready⟩ | ⟨hcursor, hready⟩⟩ := hop.mainLoop_buffer hi
    · exact ⟨hstorage, fun _ => ⟨hrelease, hcursor⟩, fun _ => ⟨hrelease, hready⟩, hflags⟩
    · exact ⟨hstorage, fun hmoved => absurd hcursor hmoved, fun hmoved => absurd hready hmoved, hflags⟩

end Sys2Proof.Machine
end

section
/-! Power-up from any state (R147): the block is the launch state's, whatever it was. -/

namespace Sys2Proof.Machine

variable (s : State)

/-- What power-up keeps of a state, the parameters, the schedule and the outputs, is none of R32's seven elements. -/
theorem powerUpState_block : (powerUpState s).block = State.reset.block := by
  simp [State.block, State.reset]

/-- After power-up no byte of the storage has a value (R34, log 4). -/
theorem byteAt_powerUpState (a : Nat) : byteAt (powerUpState s) a = none := by
  simp [byteAt]

/-- Settles O20: RESET's one outcome is the power-up state, and its fields are the laws of `powerUpState`. -/
theorem resetOperationClearsBlock : Obligations.ResetOperationClearsBlock := fun s =>
  ⟨powerUpState s, OpStep.reset.exec_eq, powerUpState_cursor s, powerUpState_ready s, byteAt_powerUpState s,
    powerUpState_busy s, powerUpState_armed s, powerUpState_phase s, powerUpState_busActive s,
    powerUpState_params s, powerUpState_held s, powerUpState_drawHeld s, powerUpState_block s⟩

end Sys2Proof.Machine
end
